-- ==== Sys2Proof/Word.lean ====
section
/-! DEFINITION. The byte, the unit in which the block addresses its two buffers (20_memory.md R50, R52). -/

namespace Sys2Proof

/-- A byte, bit 0 least significant (00_scope.md R7). Values are unsigned (R8). -/
abbrev Byte := BitVec 8

end Sys2Proof
end

