-- ==== Sys2Proof/Syntax.lean ====
section
/-! DEFINITION. The requests of the block: one constructor of `Instr` for each row of spec/opcode_table.json, the 34
dispatcher operations as keys (`Op`), the framing classes, and the fields of a packet. -/

namespace Sys2Proof

/-- The operand of PATSEQ_CTL (43_pattern_config.md R193). -/
inductive PatSeqAct where
  | start | pause | stop
  deriving DecidableEq, Repr, Inhabited

/-- A request of the host: an operation, a framer primitive or a procedure with its operands, in the operand order of
30_encoding.md R100 and R102. A flag is a `Bool`, a number a natural of any size, a byte string a list of naturals
(R94); the operand of DECODE is a string of bytes (log 17); POLLSTAT may come without an operand (45_procedures.md R261). -/
inductive Instr where
  | hwstatGet
  | sysstatGet
  | mainstatGet
  | swreset
  | standbySet (f : Bool)
  | bufswap (f : Bool)
  | buffreezeSet (f : Bool)
  | bufwrdisSet (f : Bool)
  | curbufGet
  | insrcGet
  | insrcSet (src : Nat)
  | imgload (idx : Nat)
  | imgtimeGet (start count : Nat)
  | dispmodeGet
  | dispmodeSet (m : Bool)
  | trigmodeSet (mode : Nat)
  | trigout1Set (pol : Bool) (d0 d1 : Nat)
  | patsrcSet (src : Nat)
  | patseqCtl (act : PatSeqAct)
  | exposureSet (exp : Nat) (longer : Bool)
  | lutctlSet (entries : Nat) (rep : Bool) (patternCount flashImages : Nat)
  | lutofsSet (ofs : Nat)
  | mboxOpen (fn : Nat)
  | mboxClose
  | idxlistWr (idx : List Nat)
  | patlutWr (raw : List Nat)
  | ledenGet
  | ledpolGet
  | ledcurGet
  | ledcurSet (r g b : Nat) (strict : Bool)
  | gpioCfg (pin : Nat) (state buftype dir dis : Bool)
  | gpioGet (pin : Nat)
  | validStart
  | validGet
  | encode (cmd2 cmd3 : Nat) (payload : List Nat) (readonly reply useSequence : Bool)
  | decode (p : List Byte)
  | connect
  | disconnect
  | upload (raw idx : List Nat) (exp : Nat) (longer : Bool) (mode : Nat) (rep : Bool)
  | validate (maxAttempts : Nat)
  | pollstat (retries : Option Nat)
  deriving DecidableEq, Repr, Inhabited

/-- The 34 dispatcher operations by name, the key of the command-code table (30_encoding.md R100, R101). -/
inductive Op where
  | hwstatGet | sysstatGet | mainstatGet | swreset | standbySet | bufswap | buffreezeSet | bufwrdisSet | curbufGet
  | insrcGet | insrcSet | imgload | imgtimeGet | dispmodeGet | dispmodeSet
  | trigmodeSet | trigout1Set | patsrcSet | patseqCtl | exposureSet | lutctlSet | lutofsSet | mboxOpen | mboxClose
  | idxlistWr | patlutWr
  | ledenGet | ledpolGet | ledcurGet | ledcurSet | gpioCfg | gpioGet
  | validStart | validGet
  deriving DecidableEq, Repr, Inhabited

/-- The three framing classes: query, fire-and-forget, acknowledged (30_encoding.md R90). -/
inductive FramingClass where
  | q | f | a
  deriving DecidableEq, Repr

/-- What DECODE returns of a packet (40_framer.md R123). -/
structure Frame where
  readonly : Bool
  reply    : Bool
  seq      : Byte
  cmd3     : Byte
  cmd2     : Byte
  payload  : List Byte
  deriving DecidableEq, Repr

/-- Why a byte string is no packet (60_exceptions.md R286). -/
inductive FrameCause where
  | short | reportid | length
  deriving DecidableEq, Repr

end Sys2Proof
end

