-- ==== Sys2Proof/Config.lean ====
section
/-! DEFINITION. The parameters of 00_scope.md R5 that the source leaves OPEN, the words in which the transport answers
(10_state.md R33), and the free values of the environment. A constant declared `opaque` has no body: no proof can tell
its value. -/

namespace Sys2Proof

/-- The command bytes of one operation (30_encoding.md R101). -/
structure Code where
  cmd2 : Byte
  cmd3 : Byte
  deriving DecidableEq, Repr, Inhabited

/-- The parameter binding that construction takes (70_reset_and_hazards.md R320): the OPEN rows of the table of
00_scope.md R5, and the two nominal status bytes, which the spec keeps as named parameters (92_eei_decisions.md D27).
The rows of the command-code table stand in the order of 30_encoding.md R100. -/
structure Params where
  seqInit           : Byte
  ackReply          : Bool
  codes             : Vector Code 34
  swresetByte       : Byte
  patseqStart       : Byte
  patseqPause       : Byte
  patseqStop        : Byte
  mboxFnPattern     : Nat
  mboxFnImage       : Nat
  mboxCloseCode     : Byte
  validStartPayload : List Byte
  trigout1PolBit    : Fin 8
  rxMaxLen          : Nat
  rxTimeoutMs       : Nat
  vendorId          : BitVec 16
  productId         : BitVec 16
  pollDelay         : Nat
  hasCancel         : Bool
  hwNominal         : Byte
  sysNominal        : Byte
  deriving DecidableEq, Repr

/-- The constraints a binding must meet (00_scope.md R6 and the domains of R5). -/
abbrev Params.Wf (p : Params) : Prop :=
  p.mboxFnPattern ∈ [1, 2, 3] ∧ p.mboxFnImage ∈ [1, 2, 3] ∧ p.mboxFnPattern ≠ p.mboxFnImage ∧
  p.patseqStart ≠ p.patseqPause ∧ p.patseqStart ≠ p.patseqStop ∧ p.patseqPause ≠ p.patseqStop ∧
  p.validStartPayload.length ≤ 65533 ∧ 7 ≤ p.rxMaxLen

/-- The identity strings a transport can be asked for (10_state.md R34). -/
inductive IdentityString where
  | manufacturer | product | serial
  deriving DecidableEq, Repr

/-- The transport's answer to `open` (10_state.md R33). The handle itself is held by the transport (log 29). -/
inductive OpenAnswer where
  | handle | failure
  deriving DecidableEq, Repr, Inhabited

/-- The transport's answer to `write` (10_state.md R33). -/
inductive WriteAnswer where
  | count (n : Nat) | failure
  deriving DecidableEq, Repr, Inhabited

/-- The transport's answer to `read` (10_state.md R33). -/
inductive ReadAnswer where
  | bytes (r : List Byte) | failure
  deriving DecidableEq, Repr, Inhabited

/-- One entry of the transport history: a request with its answer (20_memory.md R57). -/
inductive TransportEvent where
  | opened (vendorId productId : BitVec 16) (answer : OpenAnswer)
  | closed
  | wrote (packet : List Byte) (answer : WriteAnswer)
  | read (maxLength timeoutMs : Nat) (answer : ReadAnswer)
  | identity (which : IdentityString) (answer : List Byte)
  deriving DecidableEq, Repr

/-! The OPEN parameters of the machine after reset (log 8, 9, 10). -/

/-- `SEQ_INIT` (92_eei_decisions.md D2). -/
opaque Config.seqInit : Byte
/-- `ACK_REPLY` (D6). -/
opaque Config.ackReply : Bool
/-- `CODE[op]` (D8). -/
opaque Config.code : Op → Code
/-- `SWRESET_BYTE` (D9). -/
opaque Config.swresetByte : Byte
/-- `PATSEQ_CODE` (D9): any three pairwise different bytes are the images of 0, 1, 2 under some permutation. -/
opaque Config.patseqPerm : Equiv.Perm Byte
/-- `MBOX_FN_PATTERN` and `MBOX_FN_IMAGE` (D9): any two different codes of {1,2,3} come from a permutation. -/
opaque Config.mboxPerm : Equiv.Perm (Fin 3)
/-- `MBOX_CLOSE_CODE` (D9). -/
opaque Config.mboxCloseCode : Byte
/-- `VALID_START_PAYLOAD` (D9), cut to the domain's 65533 bytes where it is used. -/
opaque Config.validStartBytes : List Byte
/-- `TRIGOUT1_POL_BIT` (D22). -/
opaque Config.trigout1PolBit : Fin 8
/-- `RX_MAXLEN` less the 7 that 00_scope.md R6 asks for at least (D14). -/
opaque Config.rxMaxLenOver : Nat
/-- `RX_TIMEOUT_MS` (D14). -/
opaque Config.rxTimeoutMs : Nat
/-- `VENDOR_ID` (D29). -/
opaque Config.vendorId : BitVec 16
/-- `PRODUCT_ID` (D29). -/
opaque Config.productId : BitVec 16
/-- `POLL_DELAY` (D26), read by no rule. -/
opaque Config.pollDelay : Nat
/-- `HAS_CANCEL` (D28). -/
opaque Config.hasCancel : Bool
/-- `CFG.DEBUG` as given to the construction (10_state.md R23). -/
opaque Config.debug : Bool
/-- `CFG.DRYRUN` as given to the construction (10_state.md R23). -/
opaque Config.dryrun : Bool

/-- The operations in the order of 30_encoding.md R100. -/
def Op.all : List Op :=
  [.hwstatGet, .sysstatGet, .mainstatGet, .swreset, .standbySet, .bufswap, .buffreezeSet, .bufwrdisSet, .curbufGet,
   .insrcGet, .insrcSet, .imgload, .imgtimeGet, .dispmodeGet, .dispmodeSet] ++
  [.trigmodeSet, .trigout1Set, .patsrcSet, .patseqCtl, .exposureSet, .lutctlSet, .lutofsSet, .mboxOpen, .mboxClose,
   .idxlistWr, .patlutWr] ++
  [.ledenGet, .ledpolGet, .ledcurGet, .ledcurSet, .gpioCfg, .gpioGet, .validStart, .validGet]

/-- The binding of the machine after reset. The nominal status bytes are 0x01 (45_procedures.md R262, D27; log 21). -/
def Config.params : Params where
  seqInit := Config.seqInit
  ackReply := Config.ackReply
  codes := Vector.ofFn fun k => Config.code (Op.all.getD k.val default)
  swresetByte := Config.swresetByte
  patseqStart := Config.patseqPerm 0
  patseqPause := Config.patseqPerm 1
  patseqStop := Config.patseqPerm 2
  mboxFnPattern := (Config.mboxPerm 0).val + 1
  mboxFnImage := (Config.mboxPerm 1).val + 1
  mboxCloseCode := Config.mboxCloseCode
  validStartPayload := Config.validStartBytes.take 65533
  trigout1PolBit := Config.trigout1PolBit
  rxMaxLen := 7 + Config.rxMaxLenOver
  rxTimeoutMs := Config.rxTimeoutMs
  vendorId := Config.vendorId
  productId := Config.productId
  pollDelay := Config.pollDelay
  hasCancel := Config.hasCancel
  hwNominal := 0x01
  sysNominal := 0x01

/-! The free values of the environment, drawn when its script is used up (log 6). Each takes the draw counter, which is
new at every draw, and what the oracle of 20_memory.md R56 may see: the history and the request. -/

/-- A free answer to `open`. -/
opaque Config.oracleOpen : Nat → List TransportEvent → OpenAnswer
/-- A free answer to `write` of the given packet. -/
opaque Config.oracleWrite : Nat → List TransportEvent → List Byte → WriteAnswer
/-- A free answer to `read`. -/
opaque Config.oracleRead : Nat → List TransportEvent → ReadAnswer
/-- A free answer to an identity query. -/
opaque Config.oracleIdentity : Nat → List TransportEvent → IdentityString → List Byte
/-- A free sample of the `cancel` input (60_exceptions.md R297). -/
opaque Config.freeCancel : Nat → Bool

end Sys2Proof
end

