-- ==== Sys2Proof/WellFormed.lean ====
section
/-! DEFINITION. When the operands of a request are in the range in which it is sent as given: no local check rejects one
and no field narrows one (30_encoding.md R94). A request outside it is NOT refused by the machine: it is rejected with
ConfigurationError or narrowed, as its rule says (log 31). -/

namespace Sys2Proof

/-- Every element fits a byte. -/
def bytesFit (l : List Nat) : Bool := l.all (· < 256)

/-- `v` is one more than a byte, as LUTCTL_SET sends its counts (43_pattern_config.md R195). -/
def countFits (v : Nat) : Bool := 1 ≤ v && v ≤ 256

/-- The estimated LED current in units of 0.0001 A is at most 4.2 A where strict mode asks for it (44_led_gpio.md R233). -/
def ledTotalFits (r g b : Nat) (strict : Bool) : Bool := !strict || 69 * r + 71 * g + 63 * b + 9611 ≤ 42000

/-- Every operand lies in the range its field or its local check admits. -/
def WellFormed : Instr → Bool
  | .hwstatGet | .sysstatGet | .mainstatGet | .swreset | .curbufGet | .insrcGet | .dispmodeGet | .mboxClose => true
  | .ledenGet | .ledpolGet | .ledcurGet | .validStart | .validGet | .connect | .disconnect => true
  | .standbySet _ | .bufswap _ | .buffreezeSet _ | .bufwrdisSet _ | .dispmodeSet _ | .patseqCtl _ => true
  | .decode _ | .validate _ | .pollstat _ => true
  | .insrcSet src => src < 4
  | .imgload idx => idx < 256
  | .imgtimeGet start count => start < 256 && count < 256
  | .trigmodeSet mode => mode ≤ 4
  | .trigout1Set _ d0 d1 => d0 < 256 && d1 < 256
  | .patsrcSet src => src == 0 || src == 3
  | .exposureSet exp _ => exp < 2 ^ 32
  | .lutctlSet entries _ patternCount flashImages => countFits entries && countFits patternCount && countFits flashImages
  | .lutofsSet ofs => ofs < 256
  | .mboxOpen fn => fn == 1 || fn == 2 || fn == 3
  | .idxlistWr idx => bytesFit idx && idx.length ≤ 65533
  | .patlutWr raw => bytesFit raw && raw.length ≤ 65533
  | .ledcurSet r g b strict => r < 256 && g < 256 && b < 256 && ledTotalFits r g b strict
  | .gpioCfg pin _ _ _ _ => pin < 256
  | .gpioGet pin => pin < 256
  | .encode cmd2 cmd3 payload _ _ _ => cmd2 < 256 && cmd3 < 256 && bytesFit payload && payload.length ≤ 65533
  | .upload raw idx exp _ mode _ =>
      bytesFit raw && bytesFit idx && raw.length % 3 == 0 && countFits (raw.length / 3) && countFits idx.length &&
      idx.length ≤ raw.length / 3 && exp < 2 ^ 32 && mode ≤ 4

end Sys2Proof
end

