-- ==== Sys2Proof/Decode.lean ====
section
/-! DEFINITION. The wire format: byte order, the packet layout, DECODE (total on any bytes, rejecting by name), the
payload of every operation, the naming of a captured packet, and after them the encoder of a request. -/

namespace Sys2Proof

/-! Narrowing and byte order (00_scope.md R7, R8; 20_memory.md R59). -/

/-- A flag as the number 0 or 1 (30_encoding.md R94). -/
def flagNat (f : Bool) : Nat := if f then 1 else 0

/-- `trunc_N(v)` (00_scope.md R8). -/
def trunc (n v : Nat) : Nat := v % 2 ^ n

/-- `trunc_8(v)` as a byte. -/
def trunc8 (v : Nat) : Byte := BitVec.ofNat 8 v

/-- `LE16(v)`, `v` first narrowed to 16 bits. -/
def le16 (v : Nat) : List Nat := [trunc 16 v % 256, trunc 16 v / 256]

/-- `LE32(v)`, `v` first narrowed to 32 bits. -/
def le32 (v : Nat) : List Nat :=
  [trunc 32 v % 256, trunc 32 v / 2 ^ 8 % 256, trunc 32 v / 2 ^ 16 % 256, trunc 32 v / 2 ^ 24]

/-- `LE24(b)` of three bytes. -/
def le24 (b0 b1 b2 : Byte) : Nat := b0.toNat + 256 * b1.toNat + 65536 * b2.toNat

/-- The number that four little-endian bytes hold. -/
def le32Value (b0 b1 b2 b3 : Byte) : Nat := le24 b0 b1 b2 + 2 ^ 24 * b3.toNat

/-! The packet (30_encoding.md R80 to R87). -/

/-- `flags = (readonly << 7) | (reply << 6)` (30_encoding.md R83). -/
def flagsByte (readonly reply : Bool) : Byte := trunc8 (flagNat readonly <<< 7 ||| flagNat reply <<< 6)

/-- The one packet format (30_encoding.md R80): report id, flags, sequence number, length, cmd3, cmd2, payload. -/
def layout (readonly reply : Bool) (seq cmd3 cmd2 : Byte) (payload : List Byte) : List Byte :=
  [0x00, flagsByte readonly reply, seq] ++ (le16 (payload.length + 2)).map trunc8 ++ [cmd3, cmd2] ++ payload

/-- The packet that carries the given fields. -/
def encodeFrame (f : Frame) : List Byte := layout f.readonly f.reply f.seq f.cmd3 f.cmd2 f.payload

/-- DECODE (40_framer.md R123, R124). Bits 5..0 of the flags byte are ignored. -/
def decodeFrame (p : List Byte) : Except FrameCause Frame :=
  match p with
  | b0 :: b1 :: b2 :: b3 :: b4 :: b5 :: b6 :: payload =>
    let len := b3.toNat + 256 * b4.toNat
    if b0 ≠ 0x00 then .error .reportid
    else if len < 2 then .error .length
    else if p.length ≠ 5 + len then .error .length
    else .ok { readonly := b1.getLsbD 7, reply := b1.getLsbD 6, seq := b2, cmd3 := b5, cmd2 := b6, payload := payload }
  | _ => .error .short

/-! Framing classes (30_encoding.md R90 to R93). -/

/-- The class of each operation (30_encoding.md R91, R100). -/
def Op.cls : Op → FramingClass
  | .hwstatGet | .sysstatGet | .mainstatGet | .curbufGet | .insrcGet | .imgtimeGet | .dispmodeGet => .q
  | .ledenGet | .ledpolGet | .ledcurGet | .gpioGet | .validGet => .q
  | .swreset | .standbySet | .bufswap | .buffreezeSet | .bufwrdisSet | .insrcSet | .imgload | .dispmodeSet => .f
  | .patseqCtl | .ledcurSet | .gpioCfg | .validStart => .f
  | .trigmodeSet | .trigout1Set | .patsrcSet | .exposureSet | .lutctlSet | .lutofsSet | .mboxOpen | .mboxClose => .a
  | .idxlistWr | .patlutWr => .a

/-- The `readonly` bit of a class. -/
def FramingClass.readonly : FramingClass → Bool
  | .q => true
  | .f | .a => false

/-- The `reply` bit of a class, given `ACK_REPLY` (30_encoding.md R92); a response is read if and only if it is 1 (R93). -/
def FramingClass.reply (ackReply : Bool) : FramingClass → Bool
  | .q => true
  | .f => false
  | .a => ackReply

/-- `useSequence` of a class. -/
def FramingClass.useSequence : FramingClass → Bool
  | .a => true
  | .q | .f => false

/-- The row of an operation in 30_encoding.md R100, counted from 0. -/
def Op.row : Op → Fin 34
  | .hwstatGet => 0 | .sysstatGet => 1 | .mainstatGet => 2 | .swreset => 3 | .standbySet => 4 | .bufswap => 5
  | .buffreezeSet => 6 | .bufwrdisSet => 7 | .curbufGet => 8 | .insrcGet => 9 | .insrcSet => 10 | .imgload => 11
  | .imgtimeGet => 12 | .dispmodeGet => 13 | .dispmodeSet => 14 | .trigmodeSet => 15 | .trigout1Set => 16
  | .patsrcSet => 17 | .patseqCtl => 18 | .exposureSet => 19 | .lutctlSet => 20 | .lutofsSet => 21 | .mboxOpen => 22
  | .mboxClose => 23 | .idxlistWr => 24 | .patlutWr => 25 | .ledenGet => 26 | .ledpolGet => 27 | .ledcurGet => 28
  | .ledcurSet => 29 | .gpioCfg => 30 | .gpioGet => 31 | .validStart => 32 | .validGet => 33

/-- `CODE[op]` (30_encoding.md R101). -/
def Params.code (p : Params) (op : Op) : Code := p.codes[op.row]

/-! The payload builders (30_encoding.md R95, R100). ENCODE narrows every element to a byte. -/

/-- FRAME_MARGIN_US (00_scope.md R5). -/
def frameMarginUs : Nat := 230

/-- The frame period of EXPOSURE_SET (43_pattern_config.md R194). -/
def framePeriod (exp : Nat) (longer : Bool) : Nat := if longer then exp + frameMarginUs else exp

/-- The payload of EXPOSURE_SET (43_pattern_config.md R194), exposure first. -/
def exposurePayload (exp : Nat) (longer : Bool) : List Nat := le32 exp ++ le32 (framePeriod exp longer)

/-- The payload of LUTCTL_SET (43_pattern_config.md R195): each count less 1, modulo 256. -/
def lutctlPayload (entries : Nat) (rep : Bool) (patternCount flashImages : Nat) : List Nat :=
  [trunc 8 (entries + 255), flagNat rep, trunc 8 (patternCount + 255), trunc 8 (flashImages + 255)]

/-- The payload of TRIGOUT1_SET (43_pattern_config.md R191). -/
def trigout1Payload (p : Params) (pol : Bool) (d0 d1 : Nat) : List Nat :=
  [flagNat pol <<< p.trigout1PolBit.val, trunc 8 d0, trunc 8 d1]

/-- The packed configuration byte of GPIO_CFG (44_led_gpio.md R235); bits 0, 1, 2 and 6 are zero. -/
def gpioConfig (state buftype dir dis : Bool) : Nat :=
  flagNat state <<< 3 ||| flagNat buftype <<< 4 ||| flagNat dir <<< 5 ||| flagNat dis <<< 7

/-- `PATSEQ_CODE[act]` (43_pattern_config.md R193). -/
def Params.patseqCode (p : Params) : PatSeqAct → Byte
  | .start => p.patseqStart
  | .pause => p.patseqPause
  | .stop => p.patseqStop

/-- The three LED bytes on the wire, each `255 - v` for `v` in 0..255 (44_led_gpio.md R234). -/
def ledPayload (r g b : Nat) : List Nat := [255 - r, 255 - g, 255 - b]

/-- The operation that a request is, with its payload (30_encoding.md R100); none for the framer primitives and the
procedures, which are no dispatcher operation. -/
def Instr.wire (p : Params) : Instr → Option (Op × List Nat)
  | .hwstatGet => some (.hwstatGet, [])
  | .sysstatGet => some (.sysstatGet, [])
  | .mainstatGet => some (.mainstatGet, [])
  | .swreset => some (.swreset, [p.swresetByte.toNat])
  | .standbySet f => some (.standbySet, [flagNat f])
  | .bufswap f => some (.bufswap, [flagNat f])
  | .buffreezeSet f => some (.buffreezeSet, [flagNat f])
  | .bufwrdisSet f => some (.bufwrdisSet, [flagNat f])
  | .curbufGet => some (.curbufGet, [])
  | .insrcGet => some (.insrcGet, [])
  | .insrcSet src => some (.insrcSet, [trunc 2 src])
  | .imgload idx => some (.imgload, [trunc 8 idx])
  | .imgtimeGet start count => some (.imgtimeGet, [trunc 8 start, trunc 8 count])
  | .dispmodeGet => some (.dispmodeGet, [])
  | .dispmodeSet m => some (.dispmodeSet, [flagNat m])
  | .trigmodeSet mode => some (.trigmodeSet, [mode])
  | .trigout1Set pol d0 d1 => some (.trigout1Set, trigout1Payload p pol d0 d1)
  | .patsrcSet src => some (.patsrcSet, [src])
  | .patseqCtl act => some (.patseqCtl, [(p.patseqCode act).toNat])
  | .exposureSet exp longer => some (.exposureSet, exposurePayload exp longer)
  | .lutctlSet entries rep patternCount flashImages => some (.lutctlSet, lutctlPayload entries rep patternCount flashImages)
  | .lutofsSet ofs => some (.lutofsSet, [trunc 8 ofs])
  | .mboxOpen fn => some (.mboxOpen, [fn])
  | .mboxClose => some (.mboxClose, [p.mboxCloseCode.toNat])
  | .idxlistWr idx => some (.idxlistWr, idx.map (trunc 8))
  | .patlutWr raw => some (.patlutWr, raw.map (trunc 8))
  | .ledenGet => some (.ledenGet, [])
  | .ledpolGet => some (.ledpolGet, [])
  | .ledcurGet => some (.ledcurGet, [])
  | .ledcurSet r g b _ => some (.ledcurSet, ledPayload r g b)
  | .gpioCfg pin state buftype dir dis => some (.gpioCfg, [trunc 8 pin, gpioConfig state buftype dir dis])
  | .gpioGet pin => some (.gpioGet, [trunc 8 pin])
  | .validStart => some (.validStart, p.validStartPayload.map BitVec.toNat)
  | .validGet => some (.validGet, [])
  | .encode .. | .decode .. | .connect | .disconnect | .upload .. | .validate .. | .pollstat .. => none

/-! Naming a captured packet (30_encoding.md R99): the set of requests that the binding allows. -/

/-- The request with no operand, if the payload is the one it sends. -/
def ofFixed (i : Instr) (want payload : List Byte) : List Instr := if payload = want then [i] else []

/-- The requests with one flag operand whose payload is the given one. -/
def ofFlag (mk : Bool → Instr) (payload : List Byte) : List Instr :=
  [false, true].filter (fun f => payload = [trunc8 (flagNat f)]) |>.map mk

/-- The requests with one number operand, of those `fits` admits, whose payload is the given one. -/
def ofNumber (fits : Nat → Bool) (mk : Nat → Instr) (payload : List Byte) : List Instr :=
  match payload with
  | [b] => if fits b.toNat then [mk b.toNat] else []
  | _ => []

/-- The requests TRIGOUT1_SET whose payload is the given one. -/
def ofTrigout1 (p : Params) (payload : List Byte) : List Instr :=
  match payload with
  | [pol, d0, d1] =>
    [false, true].filter (fun f => pol = trunc8 (flagNat f <<< p.trigout1PolBit.val))
      |>.map fun f => .trigout1Set f d0.toNat d1.toNat
  | _ => []

/-- The requests EXPOSURE_SET whose payload is the given one. -/
def ofExposure (payload : List Byte) : List Instr :=
  match payload with
  | [e0, e1, e2, e3, _, _, _, _] =>
    let exp := le32Value e0 e1 e2 e3
    [false, true].filter (fun f => payload = (exposurePayload exp f).map trunc8) |>.map fun f => .exposureSet exp f
  | _ => []

/-- The requests LUTCTL_SET whose payload is the given one, each count in 1..256. -/
def ofLutctl (payload : List Byte) : List Instr :=
  match payload with
  | [e, r, c, g] =>
    [false, true].filter (fun f => r = trunc8 (flagNat f))
      |>.map fun f => .lutctlSet (e.toNat + 1) f (c.toNat + 1) (g.toNat + 1)
  | _ => []

/-- The requests LEDCUR_SET whose payload is the given one. The strict flag is not sent, so both senses of it are listed
where strict mode would let the packet out (log 16). -/
def ofLedcur (payload : List Byte) : List Instr :=
  match payload with
  | [r, g, b] =>
    let cur (raw : Byte) : Nat := 255 - raw.toNat
    [false, true].filter (fun f => ledTotalFits (cur r) (cur g) (cur b) f) |>.map fun f => .ledcurSet (cur r) (cur g) (cur b) f
  | _ => []

/-- The requests GPIO_CFG whose payload is the given one. -/
def ofGpioCfg (payload : List Byte) : List Instr :=
  match payload with
  | [pin, cfg] =>
    let state := cfg.getLsbD 3
    let buftype := cfg.getLsbD 4
    let dir := cfg.getLsbD 5
    let dis := cfg.getLsbD 7
    if cfg = trunc8 (gpioConfig state buftype dir dis) then [.gpioCfg pin.toNat state buftype dir dis] else []
  | _ => []

/-- The requests IMGTIME_GET whose payload is the given one. -/
def ofImgtime (payload : List Byte) : List Instr :=
  match payload with
  | [start, count] => [.imgtimeGet start.toNat count.toNat]
  | _ => []

/-- The well-formed requests that are the given operation and send the given payload. -/
def ofPayload (p : Params) (op : Op) (payload : List Byte) : List Instr :=
  match op with
  | .hwstatGet => ofFixed .hwstatGet [] payload
  | .sysstatGet => ofFixed .sysstatGet [] payload
  | .mainstatGet => ofFixed .mainstatGet [] payload
  | .swreset => ofFixed .swreset [p.swresetByte] payload
  | .standbySet => ofFlag .standbySet payload
  | .bufswap => ofFlag .bufswap payload
  | .buffreezeSet => ofFlag .buffreezeSet payload
  | .bufwrdisSet => ofFlag .bufwrdisSet payload
  | .curbufGet => ofFixed .curbufGet [] payload
  | .insrcGet => ofFixed .insrcGet [] payload
  | .insrcSet => ofNumber (· < 4) .insrcSet payload
  | .imgload => ofNumber (fun _ => true) .imgload payload
  | .imgtimeGet => ofImgtime payload
  | .dispmodeGet => ofFixed .dispmodeGet [] payload
  | .dispmodeSet => ofFlag .dispmodeSet payload
  | .trigmodeSet => ofNumber (· ≤ 4) .trigmodeSet payload
  | .trigout1Set => ofTrigout1 p payload
  | .patsrcSet => ofNumber (fun v => v == 0 || v == 3) .patsrcSet payload
  | .patseqCtl => [.start, .pause, .stop].filter (fun a => payload = [p.patseqCode a]) |>.map .patseqCtl
  | .exposureSet => ofExposure payload
  | .lutctlSet => ofLutctl payload
  | .lutofsSet => ofNumber (fun _ => true) .lutofsSet payload
  | .mboxOpen => ofNumber (fun v => v == 1 || v == 2 || v == 3) .mboxOpen payload
  | .mboxClose => ofFixed .mboxClose [p.mboxCloseCode] payload
  | .idxlistWr => [.idxlistWr (payload.map BitVec.toNat)]
  | .patlutWr => [.patlutWr (payload.map BitVec.toNat)]
  | .ledenGet => ofFixed .ledenGet [] payload
  | .ledpolGet => ofFixed .ledpolGet [] payload
  | .ledcurGet => ofFixed .ledcurGet [] payload
  | .ledcurSet => ofLedcur payload
  | .gpioCfg => ofGpioCfg payload
  | .gpioGet => ofNumber (fun _ => true) .gpioGet payload
  | .validStart => ofFixed .validStart p.validStartPayload payload
  | .validGet => ofFixed .validGet [] payload

/-- The command bytes and the `readonly` bit of a frame are those of the operation (30_encoding.md R99). -/
def Frame.names (p : Params) (f : Frame) (op : Op) : Bool :=
  f.cmd2 == (p.code op).cmd2 && f.cmd3 == (p.code op).cmd3 && f.readonly == op.cls.readonly

/-- The requests a frame may stand for under a binding. -/
def frameCandidates (p : Params) (f : Frame) : List Instr :=
  (Op.all.filter (f.names p)).flatMap fun op => ofPayload p op f.payload

/-- The requests a captured packet may stand for under a binding (30_encoding.md R99); none for a malformed packet. -/
def candidates (p : Params) (packet : List Byte) : List Instr :=
  match decodeFrame packet with
  | .ok f => frameCandidates p f
  | .error _ => []

/-- Why a packet names no request. -/
inductive DecodeError where
  /-- The bytes are no packet (40_framer.md R124). -/
  | malformed (c : FrameCause)
  /-- No operation of the binding sends this packet. -/
  | unknownCommand
  /-- More than one mnemonic sends this packet under the binding (30_encoding.md R99). -/
  | ambiguous
  deriving DecidableEq, Repr

/-- The request a packet stands for, where the binding leaves one mnemonic; of several operand readings of that
mnemonic the first of `candidates` is answered (log 16). -/
def decodePacket (p : Params) (packet : List Byte) : Except DecodeError Instr :=
  match decodeFrame packet with
  | .error c => .error (.malformed c)
  | .ok f =>
    match (Op.all.filter (f.names p)).map (fun op => ofPayload p op f.payload) |>.filter (· ≠ []) with
    | [] => .error .unknownCommand
    | [is] => match is with
      | [] => .error .unknownCommand
      | i :: _ => .ok i
    | _ => .error .ambiguous

/-- The bytes of a packet whose bits are numbered as spec/opcode_table.json numbers them (log 15): bytes 0 to 2 are one
24-bit number, byte 0 most significant; byte k from 3 on is bits 8k+7..8k. The length field gives the number of bytes
(30_encoding.md R88). -/
def tableBytes (nbits w : Nat) : List Byte :=
  let v := trunc nbits w
  let byte (k : Nat) : Byte := trunc8 (v >>> (8 * k))
  [byte 2, byte 1, byte 0] ++ (List.range (2 + ((byte 3).toNat + 256 * (byte 4).toNat))).map fun k => byte (3 + k)

/-- The raw framer call whose packet the bytes are, the row ENCODE of the opcode table: a packet with flags bits 5..0
zero. `useSequence` is not on the wire (40_framer.md R125): a sequence number of 0 is read as 0 (log 15). -/
def ofRawPacket (bytes : List Byte) : Option Instr :=
  match decodeFrame bytes with
  | .ok f =>
    if encodeFrame f = bytes then
      some (.encode f.cmd2.toNat f.cmd3.toNat (f.payload.map BitVec.toNat) f.readonly f.reply (f.seq != 0))
    else none
  | .error _ => none

/-- The operand of DECODE, whose row of the opcode table asks for a report id of 0x00 alone. -/
def ofByteString (bytes : List Byte) : Option Instr :=
  match bytes with
  | 0x00 :: _ => some (.decode bytes)
  | _ => none

/-- The row of the opcode table that the bytes are a word of: an operation whose packet they are under the binding, the
first in the table's order; else ENCODE, whose packets are all packets; else DECODE, whose words are all strings with
the report id; none for a string with another first byte (log 15). -/
def tableRequest (p : Params) (bytes : List Byte) : Option Instr :=
  (candidates p bytes).head? <|> ofRawPacket bytes <|> ofByteString bytes

/-- `decodeTableWord` under a given binding. -/
def decodeWordWith (p : Params) (nbits w : Nat) : Option Instr := tableRequest p (tableBytes nbits w)

/-- The request that the decoder reads from a word numbered as the opcode table numbers it, under the binding of the
machine after reset. -/
def decodeTableWord (nbits w : Nat) : Option Instr := decodeWordWith Config.params nbits w

/-! The encoder. -/

/-- The packet of an operation with the given payload, where `SEQ` is `seq` (30_encoding.md R80, R90, R101). -/
def opPacket (p : Params) (seq : Byte) (op : Op) (payload : List Nat) : List Byte :=
  layout op.cls.readonly (op.cls.reply p.ackReply) (if op.cls.useSequence then seq else 0)
    (p.code op).cmd3 (p.code op).cmd2 (payload.map trunc8)

/-- The packet of a request under a binding, where `SEQ` is `seq`. DECODE and the procedures have no packet of their own
(spec/opcode_table.json: "no packet of its own"). -/
def encode (p : Params) (seq : Byte) (i : Instr) : Option (List Byte) :=
  match i.wire p, i with
  | some (op, payload), _ => some (opPacket p seq op payload)
  | none, .encode cmd2 cmd3 payload readonly reply useSequence =>
    some (layout readonly reply (if useSequence then seq else 0) (trunc8 cmd3) (trunc8 cmd2) (payload.map trunc8))
  | none, _ => none

end Sys2Proof
end

