-- ==== Sys2Proof/Machine/State.lean ====
section
/-! DEFINITION. The state of the block as plain data, the outcomes it hands to the host, the reasons a request has no
meaning, and reset (construction of the session). -/

namespace Sys2Proof.Machine

/-- The snapshot fields a host may read (10_state.md R20, R27). -/
inductive SnapField where
  | hw | sys | main | dispmode | insrc | ledR | ledG | ledB
  deriving DecidableEq, Repr

/-- The value that an outcome Ok carries (60_exceptions.md R280). -/
inductive Value where
  /-- No result. -/
  | none
  /-- A byte read from the device, or a byte of the snapshot. -/
  | byte (b : Byte)
  /-- A 1-bit result (41_status_power_buffer.md R158, 42_source_image_display.md R175). -/
  | bit (b : BitVec 1)
  /-- The 2-bit input source (42_source_image_display.md R170). -/
  | source (v : BitVec 2)
  /-- The image load time, a natural without unit (42_source_image_display.md R173). -/
  | time (n : Nat)
  /-- The three LED currents (44_led_gpio.md R232). -/
  | currents (r g b : Byte)
  /-- The validation data (43_pattern_config.md R203). -/
  | validation (busy : Bool) (faults : BitVec 5) (raw : Byte)
  /-- The fault flags VALIDATE returns (45_procedures.md R257). -/
  | faults (f : BitVec 5)
  /-- What POLLSTAT returns (45_procedures.md R261). -/
  | status (attempt : Nat) (hw sys main : Byte)
  /-- The packet ENCODE returns (40_framer.md R120). -/
  | packet (p : List Byte)
  /-- The fields DECODE returns (40_framer.md R123). -/
  | frame (f : Frame)
  /-- An identity string of the transport, passed on unchanged (10_state.md R34). -/
  | identity (text : List Byte)
  deriving DecidableEq, Repr

/-- The causes of ConfigurationError, a closed list (60_exceptions.md R281). -/
inductive ConfigCause where
  | sequenceShape | flashIndexCount | mailboxFunction | triggerMode | patternInputSource | ledCurrent
  deriving DecidableEq, Repr

/-- The causes of TransportError (60_exceptions.md R282). -/
inductive TransportCause where
  | openFailed | write | read
  deriving DecidableEq, Repr

/-- The polling procedure that an ExhaustedRetry or a Cancelled names (60_exceptions.md R285, R297). -/
inductive Polling where
  | validation | status
  deriving DecidableEq, Repr

/-- The outcomes other than Ok (60_exceptions.md R280). Each is a way a request ENDS; the machine goes on with the next
request after every one of them (R292; log 2). -/
inductive Ending where
  | configurationError (c : ConfigCause)
  | transportError (c : TransportCause)
  | exhaustedRetry (p : Polling)
  | responseUnderrun
  | cancelled (p : Polling) (attempt : Nat)
  | frameError (c : FrameCause)
  deriving DecidableEq, Repr

/-- An event on the trace port (10_state.md R35). -/
inductive TraceEvent where
  | tx (packet : List Byte)
  | rx (response : List Byte)
  deriving DecidableEq, Repr

/-- What the host can present on its port (10_state.md R32). -/
inductive HostRequest where
  /-- An operation or a procedure (10_state.md R32), or a raw framer call: by which port ENCODE and DECODE are called the
  spec does not say (30_encoding.md R98, R102), and the model serves both as host requests (DESIGN CHOICE, log 33). -/
  | run (i : Instr)
  /-- The read of a snapshot field (10_state.md R27). -/
  | readSnap (f : SnapField)
  /-- An identity query (10_state.md R34). -/
  | identity (which : IdentityString)
  /-- A request whose mnemonic is none of the spec's (30_encoding.md R98). -/
  | unknown (mnemonic : String)
  deriving DecidableEq, Repr

/-- The configuration set at construction (10_state.md R23). -/
structure Cfg where
  debug  : Bool
  dryrun : Bool
  deriving DecidableEq, Repr

/-- The device-status snapshot (10_state.md R20, R24 to R27). Each field is an optional value, and absent is its value after
reset as the spec gives it (R27, R39). -/
structure Snapshot where
  hw       : Option Byte
  sys      : Option Byte
  main     : Option Byte
  dispmode : Option (BitVec 1)
  insrc    : Option (BitVec 2)
  ledR     : Option Byte
  ledG     : Option Byte
  ledB     : Option Byte
  deriving DecidableEq, Repr

/-- The snapshot after reset: every field absent (10_state.md R39). -/
def Snapshot.absent : Snapshot where
  hw := .none
  sys := .none
  main := .none
  dispmode := .none
  insrc := .none
  ledR := .none
  ledG := .none
  ledB := .none

/-- The coming answers of the environment, next first: a script for the oracle of 20_memory.md R56 and for the cancel
input of 60_exceptions.md R297. Beyond its end every answer is a free value of `Config` (log 6). -/
structure Env where
  opens      : List OpenAnswer
  writes     : List WriteAnswer
  reads      : List ReadAnswer
  identities : List (List Byte)
  cancels    : List Bool
  deriving DecidableEq, Repr

/-- The state of the block and of its ports. -/
structure State where
  /-- `SEQ` (10_state.md R21). -/
  seq       : Byte
  /-- `CONNECTED` (10_state.md R22). -/
  connected : Bool
  /-- `CFG` (10_state.md R23). -/
  cfg       : Cfg
  /-- `SNAP` (10_state.md R24 to R27). -/
  snap      : Snapshot
  /-- The parameter binding given to the construction (70_reset_and_hazards.md R320). -/
  params    : Params
  /-- `USTEP`, present while a procedure is in progress (10_state.md R28). -/
  ustep     : Option Nat
  /-- The TX packet buffer (20_memory.md R50). -/
  tx        : List Byte
  /-- The RX response buffer (20_memory.md R52). -/
  rx        : List Byte
  /-- The host port's input, next first (10_state.md R32). -/
  requests  : List HostRequest
  /-- The environment's script (log 6). -/
  env       : Env
  /-- The number of environment answers drawn so far (log 6). -/
  draws     : Nat
  /-- The transport history, oldest first (20_memory.md R57). -/
  history   : List TransportEvent
  /-- The events emitted on the trace port, oldest first (10_state.md R35). -/
  trace     : List TraceEvent
  /-- The host port's output: how the last request that was served ended (10_state.md R32, 60_exceptions.md R291). -/
  outcome   : Option (Except Ending Value)
  deriving DecidableEq, Repr

/-- Reasons the machine stops with a fault: none. No rule of the spec stops the block; every outcome, ResponseUnderrun
included, leaves it "ready for the next request" (60_exceptions.md R292; log 2). -/
inductive Fault where
  deriving DecidableEq, Repr

/-- Why a request has no meaning. Beside `notModelled` these are the spec's own refusals, a closed list
(60_exceptions.md R288): such a request changes no state and adds nothing to the history. -/
inductive Refusal where
  /-- An instruction rejected by name in `exec`. Safe: nothing can be concluded about it. -/
  | notModelled (mnemonic : String)
  /-- Raised by every packet-producing operation and by UPLOAD, VALIDATE and POLLSTAT while `CONNECTED = 0`
  (40_framer.md R127, 70_reset_and_hazards.md R324). Safe: the spec gives no outcome. -/
  | notConnected
  /-- Raised by CONNECT while `CONNECTED = 1` (45_procedures.md R250). Safe: the spec gives no outcome. -/
  | alreadyConnected
  /-- Raised by a request whose mnemonic is unknown (30_encoding.md R98). Safe: the spec gives no outcome. -/
  | unknownMnemonic
  /-- Raised by every request while a procedure is in progress (60_exceptions.md R288). Safe: the spec gives no outcome. -/
  | requestInProgress
  /-- Raised by a host read of an absent snapshot field, by no row of the opcode table. The spec states the stop: "A host
  read of an absent field is refused by the model." (10_state.md R27; 60_exceptions.md R288, 92_eei_decisions.md D17, vector
  T161). Safe: a refused request has no outcome. -/
  | snapshotAbsent (f : SnapField)
  deriving DecidableEq, Repr

/-- Construction of the session (70_reset_and_hazards.md R320, 10_state.md R39): it takes the configuration and the
parameter binding, and performs no transport access (R321). -/
def State.construct (cfg : Cfg) (params : Params) : State where
  seq := params.seqInit
  connected := false
  cfg := cfg
  snap := Snapshot.absent
  params := params
  ustep := .none
  tx := []
  rx := []
  requests := []
  env := { opens := [], writes := [], reads := [], identities := [], cancels := [] }
  draws := 0
  history := []
  trace := []
  outcome := .none

/-- The machine right after reset: a session constructed with a configuration and a binding of which only the domain is
known (log 8, 10). -/
def State.reset : State :=
  State.construct { debug := Config.debug, dryrun := Config.dryrun } Config.params

end Sys2Proof.Machine
end

