-- ==== Sys2Proof/Machine/Ops.lean ====
section
/-! DEFINITION. The operations every request shares: drawing an answer of the environment, the transport primitives and
their history, the trace port, the framer's ENCODE on the state, the transaction engine, how a request ends (the
shared "exception" of this machine), the acceptance of a request, and the procedure sequencer. -/

namespace Sys2Proof.Machine

/-- The state an activity leaves and what it ends with: a result, or an outcome other than Ok that has been raised. -/
abbrev Res (α : Type) : Type := State × Except Ending α

/-- Go on with `f` unless an outcome has been raised: after a `raise` "no later line of the pseudocode runs"
(00_scope.md R8, 60_exceptions.md R291). The state is kept as it was at the raise. -/
def Res.andThen {α β : Type} (m : Res α) (f : State → α → Res β) : Res β :=
  match m with
  | (s, .ok a) => f s a
  | (s, .error e) => (s, .error e)

/-- Raise an outcome in the given state. -/
def raise {α : Type} (e : Ending) (s : State) : Res α := (s, .error e)

/-! The environment's answers (20_memory.md R56, 10_state.md R33, R34, R36). -/

/-- The answer to the next `open`. -/
def openAnswer (s : State) : OpenAnswer := s.env.opens.head?.getD (Config.oracleOpen s.draws s.history)

/-- The answer to the next `write`, of the given packet. -/
def writeAnswer (packet : List Byte) (s : State) : WriteAnswer :=
  s.env.writes.head?.getD (Config.oracleWrite s.draws s.history packet)

/-- A read answers at most `RX_MAXLEN` bytes (20_memory.md R55; log 7). -/
def clip (maxLen : Nat) : ReadAnswer → ReadAnswer
  | .bytes r => .bytes (r.take maxLen)
  | .failure => .failure

/-- The answer to the next `read`. -/
def readAnswer (s : State) : ReadAnswer :=
  clip s.params.rxMaxLen (s.env.reads.head?.getD (Config.oracleRead s.draws s.history))

/-- The answer to the next identity query. -/
def identityAnswer (which : IdentityString) (s : State) : List Byte :=
  s.env.identities.head?.getD (Config.oracleIdentity s.draws s.history which)

/-- The next sample of the cancel input: 1 only where the input exists (10_state.md R36). -/
def cancelSample (s : State) : Bool :=
  s.params.hasCancel && s.env.cancels.head?.getD (Config.freeCancel s.draws)

/-! The transport primitives. Each records the request with its answer at the end of the history (20_memory.md R57). -/

/-- The transport's `open` has been requested and answered (45_procedures.md R250). -/
def openTransport (s : State) : State :=
  { s with env := { s.env with opens := s.env.opens.tail }, draws := s.draws + 1,
           history := s.history ++ [.opened s.params.vendorId s.params.productId (openAnswer s)] }

/-- The transport's `close`, which cannot fail (45_procedures.md R251). -/
def closeTransport (s : State) : State := { s with history := s.history ++ [.closed] }

/-- A write is `ok` when the transport returns a count equal to the packet's length (20_memory.md R54). -/
def writeAccepted (packet : List Byte) (s : State) : Bool := writeAnswer packet s == .count packet.length

/-- `TWrite` of the TX buffer has been requested and answered (20_memory.md R54). -/
def writeTransport (s : State) : State :=
  { s with env := { s.env with writes := s.env.writes.tail }, draws := s.draws + 1,
           history := s.history ++ [.wrote s.tx (writeAnswer s.tx s)] }

/-- `TRead` has been requested and answered (20_memory.md R55). -/
def readTransport (s : State) : State :=
  { s with env := { s.env with reads := s.env.reads.tail }, draws := s.draws + 1,
           history := s.history ++ [.read s.params.rxMaxLen s.params.rxTimeoutMs (readAnswer s)] }

/-- An identity query has been requested and answered (10_state.md R34; log 19). -/
def queryIdentity (which : IdentityString) (s : State) : State :=
  { s with env := { s.env with identities := s.env.identities.tail }, draws := s.draws + 1,
           history := s.history ++ [.identity which (identityAnswer which s)] }

/-- The cancel input has been sampled, where it exists (60_exceptions.md R297). -/
def sampleCancel (s : State) : State :=
  if s.params.hasCancel then
    { s with env := { s.env with cancels := s.env.cancels.tail }, draws := s.draws + 1 }
  else s

/-- An event on the trace port, when `CFG.DEBUG` is 1 (10_state.md R35). -/
def emit (e : TraceEvent) (s : State) : State :=
  { s with trace := if s.cfg.debug then s.trace ++ [e] else s.trace }

/-! The framer on the state (40_framer.md R120, R122). -/

/-- The sequence number of the next packet: 0, or the value of `SEQ` before the increment. -/
def nextSeq (useSequence : Bool) (s : State) : Byte := if useSequence then s.seq else 0

/-- ENCODE (40_framer.md R120): it builds the packet in the TX buffer, and adds 1 to `SEQ` when `useSequence` is 1. -/
def framerEncode (cmd2 cmd3 : Nat) (payload : List Nat) (readonly reply useSequence : Bool) (s : State) : State :=
  { s with tx := layout readonly reply (nextSeq useSequence s) (trunc8 cmd3) (trunc8 cmd2) (payload.map trunc8),
           seq := if useSequence then s.seq + 1 else s.seq }

/-- The TX and RX buffers are discarded at the end of an operation (10_state.md R38). -/
def discardBuffers (s : State) : State := { s with tx := [], rx := [] }

/-! The transaction engine (40_framer.md R126). -/

/-- `TRead` of the transaction engine: the response becomes the RX buffer, or TransportError(read) is raised. -/
def receive (s : State) : Res Unit :=
  match readAnswer s with
  | .bytes r => (emit (.rx r) { readTransport s with rx := r }, .ok ())
  | .failure => raise (.transportError .read) (readTransport s)

/-- The packet of an operation has been built and traced: ENCODE with the fields of `CODE[op]` and of the class, then
`Trace(tx, p)` (40_framer.md R126). -/
def buildPacket (op : Op) (payload : List Nat) (s : State) : State :=
  let encoded := framerEncode (s.params.code op).cmd2.toNat (s.params.code op).cmd3.toNat payload
    op.cls.readonly (op.cls.reply s.params.ackReply) op.cls.useSequence s
  emit (.tx encoded.tx) encoded

/-- `Issue(op, payload)` (40_framer.md R126) of an operation whose precondition and local checks have passed: encode,
one `TWrite`, then one `TRead` exactly when the packet asks for a reply (30_encoding.md R93). -/
def issue (op : Op) (payload : List Nat) (s : State) : Res Unit :=
  let built := buildPacket op payload s
  let written := writeTransport built
  if writeAccepted built.tx built then
    if op.cls.reply s.params.ackReply then receive written else (written, .ok ())
  else raise (.transportError .write) written

/-- One dispatcher operation in the order of 40_framer.md R128: local check, then `Issue`, then the parser with the
snapshot write. The buffers do not survive it, however it ends. -/
def operation {α : Type} (check : Option ConfigCause) (op : Op) (payload : List Nat) (parse : State → Res α) (s : State) :
    Res α :=
  match check with
  | some c => raise (.configurationError c) s
  | none =>
    let r := (issue op payload s).andThen fun s' _ => parse s'
    (discardBuffers r.1, r.2)

/-- The parser of an operation without a result: nothing is examined (40_framer.md R129). -/
def noResult (s : State) : Res Value := (s, .ok .none)

/-! How a request ends: the one place where an outcome reaches the host. -/

/-- The outcome is handed to the host on the host port. It "saves no state and transfers control nowhere inside the
block" (60_exceptions.md R291); there is nothing to restore (R292): the next request may follow. -/
def deliver (r : Res Value) : State := { r.1 with outcome := some r.2 }

/-- A request is accepted only when none is in progress (60_exceptions.md R288). -/
def accept (body : State → Host.Outcome State Fault Refusal) (s : State) : Host.Outcome State Fault Refusal :=
  if s.ustep.isSome then .refused .requestInProgress else body s

/-- The precondition of every request that sends packets (40_framer.md R127, 70_reset_and_hazards.md R324): with
`CONNECTED = 0` it is refused, before any local check (log 4). -/
def serveConnected (body : State → Res Value) (s : State) : Host.Outcome State Fault Refusal :=
  accept (fun s => if s.connected then .next (deliver (body s)) else .refused .notConnected) s

/-! The procedure sequencer (45_procedures.md R264, R265, 10_state.md R28). -/

/-- `USTEP <- n`. -/
def setUstep (n : Nat) (s : State) : State := { s with ustep := some n }

/-- A procedure: `USTEP` starts at 0 and is lost when the procedure ends. -/
def procedure {α : Type} (body : State → Res α) (s : State) : Res α :=
  let r := body (setUstep 0 s)
  ({ r.1 with ustep := none }, r.2)

/-- A straight line of operations from `USTEP = k`: each constituent operation that ends Ok advances `USTEP`, and the
first that ends otherwise ends the procedure with its outcome (45_procedures.md R264). -/
def runSteps (k : Nat) : List (State → Res Value) → State → Res Value
  | [], s => (s, .ok .none)
  | step :: rest, s => (step s).andThen fun s' _ => runSteps (k + 1) rest (setUstep (k + 1) s')

end Sys2Proof.Machine
end

