-- ==== Sys2Proof/Machine/Operands.lean ====
section
/-! DEFINITION. The response parser (40_framer.md R130 to R132), the conversions applied to parsed values, and the local
checks of the operands (60_exceptions.md R281), with the FIXED parameters of 00_scope.md R5 they use. -/

namespace Sys2Proof.Machine

/-! Reading the RX buffer. -/

/-- `MemRead(RX, off, k)`: nothing when the response has fewer than `off + k` bytes (40_framer.md R131). -/
def memRead (rx : List Byte) (off k : Nat) : Option (List Byte) :=
  if off + k ≤ rx.length then some ((rx.drop off).take k) else none

/-- `Byte(r, off)` (40_framer.md R132). -/
def rxByte (rx : List Byte) (off : Nat) : Option Byte :=
  match memRead rx off 1 with
  | some [b] => some b
  | _ => none

/-- `Bits(r, off, k)`: the low `k` bits of the byte (40_framer.md R132). -/
def rxBits (rx : List Byte) (off k : Nat) : Option (BitVec k) := (rxByte rx off).map (BitVec.setWidth k)

/-- `Triple(r, off)` (40_framer.md R132). -/
def rxTriple (rx : List Byte) (off : Nat) : Option (Byte × Byte × Byte) :=
  match memRead rx off 3 with
  | some [a, b, c] => some (a, b, c)
  | _ => none

/-- `Tick(r, off)` (40_framer.md R132). -/
def rxTick (rx : List Byte) (off : Nat) : Option Nat := (rxTriple rx off).map fun (a, b, c) => le24 a b c

/-- The offset of every result but that of GPIO_GET (20_memory.md R53). -/
def resultOffset : Nat := 4

/-- The offset of the one "addressed read", GPIO_GET (20_memory.md R53). -/
def addressedOffset : Nat := 5

/-- Take what the parser found, or raise ResponseUnderrun and write nothing (40_framer.md R131). -/
def parsed {α β : Type} (found : Option α) (use : α → State → State × β) (s : State) : Res β :=
  match found with
  | some a => ((use a s).1, .ok (use a s).2)
  | none => raise .responseUnderrun s

/-! Conversions. -/

/-- TICK_DIVISOR (00_scope.md R5). -/
def tickDivisor : Nat := 18667

/-- `Ticks2Time(t)` (42_source_image_display.md R173). -/
def ticksToTime (t : Nat) : Nat := t / tickDivisor

/-- A LED current from its raw wire value, `255 - raw` (44_led_gpio.md R232). -/
def ledFromRaw (raw : Byte) : Byte := trunc8 (255 - raw.toNat)

/-! Local checks: the cause of the ConfigurationError, or nothing. -/

/-- TRIGMODE_MAX (00_scope.md R5). -/
def trigmodeMax : Nat := 4

/-- The check of TRIGMODE_SET, on the number and not on its low byte (43_pattern_config.md R190). -/
def checkTrigmode (mode : Nat) : Option ConfigCause := if mode > trigmodeMax then some .triggerMode else none

/-- PATSRC_RAW (00_scope.md R5). -/
def patsrcRaw : Nat := 0

/-- PATSRC_FLASH (00_scope.md R5). -/
def patsrcFlash : Nat := 3

/-- The check of PATSRC_SET (43_pattern_config.md R192). -/
def checkPatsrc (src : Nat) : Option ConfigCause :=
  if src ≠ patsrcRaw ∧ src ≠ patsrcFlash then some .patternInputSource else none

/-- The check of MBOX_OPEN (43_pattern_config.md R198). -/
def checkMailbox (fn : Nat) : Option ConfigCause :=
  if fn ≠ 1 ∧ fn ≠ 2 ∧ fn ≠ 3 then some .mailboxFunction else none

/-- What the LED current guard answers (44_led_gpio.md R233). -/
inductive LedVerdict where
  | pass | rejectRange | rejectTotal
  deriving DecidableEq, Repr

/-- The estimated total LED current in units of 0.0001 A: LED_K_R, LED_K_G, LED_K_B and LED_K_0 of 00_scope.md R5. -/
def ledTotal (r g b : Nat) : Nat := 69 * r + 71 * g + 63 * b + 9611

/-- LED_LIMIT, 4.2 A (00_scope.md R5). -/
def ledLimit : Nat := 42000

/-- `checkLedCurrent` (44_led_gpio.md R233): the range test precedes the total test (60_exceptions.md R289). -/
def checkLedCurrent (r g b : Nat) (strict : Bool) : LedVerdict :=
  if r > 255 ∨ g > 255 ∨ b > 255 then .rejectRange
  else if strict ∧ ledTotal r g b > ledLimit then .rejectTotal
  else .pass

/-- The check of LEDCUR_SET (44_led_gpio.md R234). -/
def checkLed (r g b : Nat) (strict : Bool) : Option ConfigCause :=
  if checkLedCurrent r g b strict = .pass then none else some .ledCurrent

/-- The pre-flight check of UPLOAD (45_procedures.md R253): shape, then index count, then trigger mode. -/
def preflight (raw idx : List Nat) (mode : Nat) : Option ConfigCause :=
  if raw.length = 0 ∨ raw.length % 3 ≠ 0 then some .sequenceShape
  else if idx.length < 1 ∨ idx.length > raw.length / 3 then some .flashIndexCount
  else checkTrigmode mode

/-- POLL_DEFAULT_RETRIES (00_scope.md R5). -/
def pollDefaultRetries : Nat := 10

end Sys2Proof.Machine
end

