-- ==== Sys2Proof/Machine/Flags.lean ====
section
/-! DEFINITION. The flags of the validation data (43_pattern_config.md R203, R204) and the classification of Ok values
as DeviceFault (60_exceptions.md R284). The block has no condition codes (10_state.md R30); the flags byte of a packet is
`flagsByte` in Decode. -/

namespace Sys2Proof.Machine

/-- The busy bit of the validation data, bit 7 (43_pattern_config.md R203). -/
def validationBusy (v : Byte) : Bool := v.getLsbD 7

/-- The five fault bits of the validation data, bits 4..0; bits 6 and 5 are dropped (43_pattern_config.md R203). -/
def validationFaults (v : Byte) : BitVec 5 := v.setWidth 5

/-- The faults the device names in the validation data (43_pattern_config.md R204). -/
inductive ValidationFault where
  | exposureInvalid | lutNumbersInvalid | triggerOverlap | missingPostVector | deltaUnder230
  deriving DecidableEq, Repr

/-- The faults of the set bits, bit 0 first (43_pattern_config.md R204). They are independent: any subset may be set. -/
def namedFaults (f : BitVec 5) : List ValidationFault :=
  (if f.getLsbD 0 then [.exposureInvalid] else []) ++ (if f.getLsbD 1 then [.lutNumbersInvalid] else []) ++
  (if f.getLsbD 2 then [.triggerOverlap] else []) ++ (if f.getLsbD 3 then [.missingPostVector] else []) ++
  (if f.getLsbD 4 then [.deltaUnder230] else [])

/-- DeviceFault is a predicate on the Ok value of a request (60_exceptions.md R284): VALIDATE with a nonzero value,
HWSTAT_GET and SYSSTAT_GET with a non-nominal byte. It is data for the caller, never raised. -/
def deviceFault (p : Params) : Instr → Value → Bool
  | .validate _, .faults f => f != 0
  | .hwstatGet, .byte b => b != p.hwNominal
  | .sysstatGet, .byte b => b != p.sysNominal
  | _, _ => false

end Sys2Proof.Machine
end

