-- ==== Sys2Proof/Machine/Framer.lean ====
section
/-! DEFINITION. The framer primitives as the host calls them: ENCODE (40_framer.md R120) and DECODE (R123). Neither
touches the transport, so neither needs a connection (log 5). -/

namespace Sys2Proof.Machine

/-- ENCODE (40_framer.md R120 to R122): always Ok, with the packet as its value; the TX buffer is discarded after. -/
def execEncode (cmd2 cmd3 : Nat) (payload : List Nat) (readonly reply useSequence : Bool) (s : State) :
    Host.Outcome State Fault Refusal :=
  accept (fun s =>
    let built := framerEncode cmd2 cmd3 payload readonly reply useSequence s
    .next (deliver (discardBuffers built, .ok (.packet built.tx)))) s

/-- DECODE (40_framer.md R123, R124): a pure function of its operand; FrameError on a malformed packet. -/
def execDecode (p : List Byte) (s : State) : Host.Outcome State Fault Refusal :=
  accept (fun s =>
    match decodeFrame p with
    | .ok f => .next (deliver (s, .ok (.frame f)))
    | .error c => .next (deliver (raise (.frameError c) s))) s

end Sys2Proof.Machine
end

