-- ==== Sys2Proof/Machine/Led.lean ====
section
/-! DEFINITION. LED and GPIO operations (44_led_gpio.md), operations 27 to 32 of 30_encoding.md R100. -/

namespace Sys2Proof.Machine

/-- LEDEN_GET (R230). -/
def execLedenGet (s : State) : Host.Outcome State Fault Refusal :=
  serveConnected (operation none .ledenGet [] fun s =>
    parsed (rxByte s.rx resultOffset) (fun v s => (s, .byte v)) s) s

/-- LEDPOL_GET (R231). -/
def execLedpolGet (s : State) : Host.Outcome State Fault Refusal :=
  serveConnected (operation none .ledpolGet [] fun s =>
    parsed (rxByte s.rx resultOffset) (fun v s => (s, .byte v)) s) s

/-- LEDCUR_GET (R232): all three snapshot fields are written or none. -/
def execLedcurGet (s : State) : Host.Outcome State Fault Refusal :=
  serveConnected (operation none .ledcurGet [] fun s =>
    parsed (rxTriple s.rx resultOffset)
      (fun (r, g, b) s =>
        ({ s with snap := { s.snap with ledR := some (ledFromRaw r), ledG := some (ledFromRaw g), ledB := some (ledFromRaw b) } },
         .currents (ledFromRaw r) (ledFromRaw g) (ledFromRaw b))) s) s

/-- LEDCUR_SET (R234): gated by the LED current guard; it does not write the snapshot (10_state.md R26). -/
def execLedcurSet (r g b : Nat) (strict : Bool) (s : State) : Host.Outcome State Fault Refusal :=
  serveConnected (operation (checkLed r g b strict) .ledcurSet (ledPayload r g b) noResult) s

/-- GPIO_CFG (R235). -/
def execGpioCfg (pin : Nat) (state buftype dir dis : Bool) (s : State) : Host.Outcome State Fault Refusal :=
  serveConnected (operation none .gpioCfg [trunc 8 pin, gpioConfig state buftype dir dis] noResult) s

/-- GPIO_GET (R236): the one result at offset 5. -/
def execGpioGet (pin : Nat) (s : State) : Host.Outcome State Fault Refusal :=
  serveConnected (operation none .gpioGet [trunc 8 pin] fun s =>
    parsed (rxByte s.rx addressedOffset) (fun v s => (s, .byte v)) s) s

end Sys2Proof.Machine
end

