-- ==== Sys2Proof/Machine/Pattern.lean ====
section
/-! DEFINITION. Pattern-sequence configuration, mailbox and validation operations (43_pattern_config.md), operations 16
to 26, 33 and 34 of 30_encoding.md R100. The definitions `op…` are the operations as UPLOAD and VALIDATE run them: "an
operation inside a procedure behaves exactly as it does alone" (45_procedures.md R264). -/

namespace Sys2Proof.Machine

/-- TRIGMODE_SET as a constituent operation (R190). -/
def opTrigmodeSet (mode : Nat) : State → Res Value := operation (checkTrigmode mode) .trigmodeSet [mode] noResult

/-- PATSRC_SET as a constituent operation (R192). -/
def opPatsrcSet (src : Nat) : State → Res Value := operation (checkPatsrc src) .patsrcSet [src] noResult

/-- EXPOSURE_SET as a constituent operation (R194). -/
def opExposureSet (exp : Nat) (longer : Bool) : State → Res Value :=
  operation none .exposureSet (exposurePayload exp longer) noResult

/-- LUTCTL_SET as a constituent operation (R195). -/
def opLutctlSet (entries : Nat) (rep : Bool) (patternCount flashImages : Nat) : State → Res Value :=
  operation none .lutctlSet (lutctlPayload entries rep patternCount flashImages) noResult

/-- LUTOFS_SET as a constituent operation (R196). -/
def opLutofsSet (ofs : Nat) : State → Res Value := operation none .lutofsSet [trunc 8 ofs] noResult

/-- MBOX_OPEN as a constituent operation (R198). -/
def opMboxOpen (fn : Nat) : State → Res Value := operation (checkMailbox fn) .mboxOpen [fn] noResult

/-- MBOX_CLOSE as a constituent operation (R199). -/
def opMboxClose (s : State) : Res Value := operation none .mboxClose [s.params.mboxCloseCode.toNat] noResult s

/-- IDXLIST_WR as a constituent operation (R200). -/
def opIdxlistWr (idx : List Nat) : State → Res Value := operation none .idxlistWr (idx.map (trunc 8)) noResult

/-- PATLUT_WR as a constituent operation (R201). -/
def opPatlutWr (raw : List Nat) : State → Res Value := operation none .patlutWr (raw.map (trunc 8)) noResult

/-- VALID_START as a constituent operation (R202). -/
def opValidStart (s : State) : Res Value :=
  operation none .validStart (s.params.validStartPayload.map BitVec.toNat) noResult s

/-- VALID_GET as a constituent operation (R203): the busy bit, the fault bits and the raw byte. -/
def opValidGet : State → Res (Bool × BitVec 5 × Byte) :=
  operation none .validGet [] fun s =>
    parsed (rxByte s.rx resultOffset) (fun v s => (s, validationBusy v, validationFaults v, v)) s

/-- TRIGMODE_SET (R190). -/
def execTrigmodeSet (mode : Nat) (s : State) : Host.Outcome State Fault Refusal := serveConnected (opTrigmodeSet mode) s

/-- TRIGOUT1_SET (R191). -/
def execTrigout1Set (pol : Bool) (d0 d1 : Nat) (s : State) : Host.Outcome State Fault Refusal :=
  serveConnected (operation none .trigout1Set (trigout1Payload s.params pol d0 d1) noResult) s

/-- PATSRC_SET (R192). -/
def execPatsrcSet (src : Nat) (s : State) : Host.Outcome State Fault Refusal := serveConnected (opPatsrcSet src) s

/-- PATSEQ_CTL (R193): no check that validation has been run (70_reset_and_hazards.md R333). -/
def execPatseqCtl (act : PatSeqAct) (s : State) : Host.Outcome State Fault Refusal :=
  serveConnected (operation none .patseqCtl [(s.params.patseqCode act).toNat] noResult) s

/-- EXPOSURE_SET (R194). -/
def execExposureSet (exp : Nat) (longer : Bool) (s : State) : Host.Outcome State Fault Refusal :=
  serveConnected (opExposureSet exp longer) s

/-- LUTCTL_SET (R195). -/
def execLutctlSet (entries : Nat) (rep : Bool) (patternCount flashImages : Nat) (s : State) :
    Host.Outcome State Fault Refusal :=
  serveConnected (opLutctlSet entries rep patternCount flashImages) s

/-- LUTOFS_SET (R196). -/
def execLutofsSet (ofs : Nat) (s : State) : Host.Outcome State Fault Refusal := serveConnected (opLutofsSet ofs) s

/-- MBOX_OPEN (R198). -/
def execMboxOpen (fn : Nat) (s : State) : Host.Outcome State Fault Refusal := serveConnected (opMboxOpen fn) s

/-- MBOX_CLOSE (R199). -/
def execMboxClose (s : State) : Host.Outcome State Fault Refusal := serveConnected opMboxClose s

/-- IDXLIST_WR (R200). -/
def execIdxlistWr (idx : List Nat) (s : State) : Host.Outcome State Fault Refusal := serveConnected (opIdxlistWr idx) s

/-- PATLUT_WR (R201). -/
def execPatlutWr (raw : List Nat) (s : State) : Host.Outcome State Fault Refusal := serveConnected (opPatlutWr raw) s

/-- VALID_START (R202). -/
def execValidStart (s : State) : Host.Outcome State Fault Refusal := serveConnected opValidStart s

/-- VALID_GET (R203). -/
def execValidGet (s : State) : Host.Outcome State Fault Refusal :=
  serveConnected (fun s => (opValidGet s).andThen fun s' (busy, faults, raw) => (s', .ok (.validation busy faults raw))) s

end Sys2Proof.Machine
end

