-- ==== Sys2Proof/Machine/Status.lean ====
section
/-! DEFINITION. Status, reset, standby and buffer operations (41_status_power_buffer.md), operations 1 to 9 of
30_encoding.md R100. -/

namespace Sys2Proof.Machine

/-- HWSTAT_GET as a constituent operation (R150). -/
def opHwstatGet : State → Res Value :=
  operation none .hwstatGet [] fun s =>
    parsed (rxByte s.rx resultOffset) (fun v s => ({ s with snap := { s.snap with hw := some v } }, .byte v)) s

/-- SYSSTAT_GET as a constituent operation (R151). -/
def opSysstatGet : State → Res Value :=
  operation none .sysstatGet [] fun s =>
    parsed (rxByte s.rx resultOffset) (fun v s => ({ s with snap := { s.snap with sys := some v } }, .byte v)) s

/-- MAINSTAT_GET as a constituent operation (R152). -/
def opMainstatGet : State → Res Value :=
  operation none .mainstatGet [] fun s =>
    parsed (rxByte s.rx resultOffset) (fun v s => ({ s with snap := { s.snap with main := some v } }, .byte v)) s

/-- HWSTAT_GET (R150). -/
def execHwstatGet (s : State) : Host.Outcome State Fault Refusal := serveConnected opHwstatGet s

/-- SYSSTAT_GET (R151). -/
def execSysstatGet (s : State) : Host.Outcome State Fault Refusal := serveConnected opSysstatGet s

/-- MAINSTAT_GET (R152). -/
def execMainstatGet (s : State) : Host.Outcome State Fault Refusal := serveConnected opMainstatGet s

/-- SWRESET (R153): it asks the device to reset and changes no register of the block (70_reset_and_hazards.md R322). -/
def execSwreset (s : State) : Host.Outcome State Fault Refusal :=
  serveConnected (operation none .swreset [s.params.swresetByte.toNat] noResult) s

/-- STANDBY_SET (R154): 1 enters, 0 leaves. -/
def execStandbySet (f : Bool) (s : State) : Host.Outcome State Fault Refusal :=
  serveConnected (operation none .standbySet [flagNat f] noResult) s

/-- BUFSWAP (R155). -/
def execBufswap (f : Bool) (s : State) : Host.Outcome State Fault Refusal :=
  serveConnected (operation none .bufswap [flagNat f] noResult) s

/-- BUFFREEZE_SET (R156). -/
def execBuffreezeSet (f : Bool) (s : State) : Host.Outcome State Fault Refusal :=
  serveConnected (operation none .buffreezeSet [flagNat f] noResult) s

/-- BUFWRDIS_SET (R157): the sense of the flag is the device's. -/
def execBufwrdisSet (f : Bool) (s : State) : Host.Outcome State Fault Refusal :=
  serveConnected (operation none .bufwrdisSet [flagNat f] noResult) s

/-- CURBUF_GET (R158): bits 7..1 of the data byte are dropped and nothing is cached. -/
def execCurbufGet (s : State) : Host.Outcome State Fault Refusal :=
  serveConnected (operation none .curbufGet [] fun s =>
    parsed (rxBits s.rx resultOffset 1) (fun v s => (s, .bit v)) s) s

end Sys2Proof.Machine
end

