-- ==== Sys2Proof/Machine/Procedures.lean ====
section
/-! DEFINITION. The five procedures (45_procedures.md): CONNECT, DISCONNECT, UPLOAD, VALIDATE, POLLSTAT. -/

namespace Sys2Proof.Machine

/-- CONNECT on a block that is not connected (R250, R251): a failed `open` is followed by one `close`. -/
def connectBody (s : State) : Res Value :=
  match openAnswer s with
  | .handle => ({ openTransport s with connected := true }, .ok .none)
  | .failure => raise (.transportError .openFailed) (closeTransport (openTransport s))

/-- CONNECT (R250); refused while connected. -/
def execConnect (s : State) : Host.Outcome State Fault Refusal :=
  accept (fun s => if s.connected then .refused .alreadyConnected else .next (deliver (connectBody s))) s

/-- DISCONNECT's effect (R252): nothing when the block is not connected. -/
def disconnectBody (s : State) : State :=
  if s.connected then { closeTransport s with connected := false } else s

/-- DISCONNECT (R252): always Ok. -/
def execDisconnect (s : State) : Host.Outcome State Fault Refusal :=
  accept (fun s => .next (deliver (disconnectBody s, .ok .none))) s

/-- The twelve operations of UPLOAD in their fixed order (R254); `E` is the LUT-entry count. -/
def uploadSteps (p : Params) (raw idx : List Nat) (exp : Nat) (longer : Bool) (mode : Nat) (rep : Bool) :
    List (State → Res Value) :=
  let entries := raw.length / 3
  [opPatsrcSet patsrcFlash, opLutctlSet entries rep entries idx.length, opExposureSet exp longer, opTrigmodeSet mode,
   opMboxOpen p.mboxFnPattern, opLutofsSet 0, opPatlutWr raw, opMboxClose,
   opMboxOpen p.mboxFnImage, opLutofsSet 0, opIdxlistWr idx, opMboxClose]

/-- UPLOAD on a connected block: the pre-flight check (R253), then the twelve steps (R254, R255). -/
def uploadBody (raw idx : List Nat) (exp : Nat) (longer : Bool) (mode : Nat) (rep : Bool) (s : State) : Res Value :=
  match preflight raw idx mode with
  | some c => raise (.configurationError c) s
  | none => procedure (runSteps 0 (uploadSteps s.params raw idx exp longer mode rep)) s

/-- UPLOAD (R254). -/
def execUpload (raw idx : List Nat) (exp : Nat) (longer : Bool) (mode : Nat) (rep : Bool) (s : State) :
    Host.Outcome State Fault Refusal :=
  serveConnected (uploadBody raw idx exp longer mode rep) s

/-- The attempts of VALIDATE from attempt `k`, of which at most `left` remain (R257): sample the cancel input, read the
validation data, stop when the busy bit is clear. The top of an attempt is `USTEP = 1` (R265; log 12). -/
def validateAttempts (k : Nat) : Nat → State → Res Value
  | 0, s => raise (.exhaustedRetry .validation) s
  | left + 1, s =>
    let s1 := sampleCancel (setUstep 1 s)
    if cancelSample s then raise (.cancelled .validation k) s1
    else (opValidGet s1).andThen fun s2 (busy, faults, _) =>
      if busy then validateAttempts (k + 1) left (setUstep 2 s2) else (setUstep 2 s2, .ok (.faults faults))

/-- VALIDATE on a connected block (R257): VALID_START, then the bounded attempts. -/
def validateBody (maxAttempts : Nat) : State → Res Value :=
  procedure fun s => (opValidStart s).andThen fun s1 _ => validateAttempts 1 maxAttempts s1

/-- VALIDATE (R257). -/
def execValidate (maxAttempts : Nat) (s : State) : Host.Outcome State Fault Refusal :=
  serveConnected (validateBody maxAttempts) s

/-- The three queries of one attempt of POLLSTAT (R261), at `USTEP` 0, 1 and 2. -/
def statusQueries : List (State → Res Value) := [opHwstatGet, opSysstatGet, opMainstatGet]

/-- The stop condition of POLLSTAT with its result (R261, R262): the snapshot's hardware and system bytes are nominal.
The main byte takes no part. The attempt has written all three, so none is absent. -/
def nominalStatus (k : Nat) (s : State) : Option Value :=
  match s.snap.hw, s.snap.sys, s.snap.main with
  | some hw, some sys, some main =>
    if hw = s.params.hwNominal ∧ sys = s.params.sysNominal then some (.status k hw sys main) else none
  | _, _, _ => none

/-- The attempts of POLLSTAT from attempt `k`, of which at most `left` remain (R261). -/
def pollAttempts (k : Nat) : Nat → State → Res Value
  | 0, s => raise (.exhaustedRetry .status) s
  | left + 1, s =>
    let s1 := sampleCancel (setUstep 0 s)
    if cancelSample s then raise (.cancelled .status k) s1
    else (runSteps 0 statusQueries s1).andThen fun s2 _ =>
      match nominalStatus k s2 with
      | some v => (s2, .ok v)
      | none => pollAttempts (k + 1) left s2

/-- POLLSTAT on a connected block (R261), with the default bound when the host gives none. -/
def pollBody (retries : Option Nat) : State → Res Value :=
  procedure (pollAttempts 1 (retries.getD pollDefaultRetries))

/-- POLLSTAT (R261). -/
def execPollstat (retries : Option Nat) (s : State) : Host.Outcome State Fault Refusal :=
  serveConnected (pollBody retries) s

end Sys2Proof.Machine
end

