-- ==== Sys2Proof/Machine/Source.lean ====
section
/-! DEFINITION. Input source, image load and display mode operations (42_source_image_display.md), operations 10 to 15
of 30_encoding.md R100. -/

namespace Sys2Proof.Machine

/-- INSRC_GET (R170). -/
def execInsrcGet (s : State) : Host.Outcome State Fault Refusal :=
  serveConnected (operation none .insrcGet [] fun s =>
    parsed (rxBits s.rx resultOffset 2) (fun v s => ({ s with snap := { s.snap with insrc := some v } }, .source v)) s) s

/-- INSRC_SET (R171): narrowed to 2 bits; it does not write `SNAP.INSRC` (10_state.md R25). -/
def execInsrcSet (src : Nat) (s : State) : Host.Outcome State Fault Refusal :=
  serveConnected (operation none .insrcSet [trunc 2 src] noResult) s

/-- IMGLOAD (R172). -/
def execImgload (idx : Nat) (s : State) : Host.Outcome State Fault Refusal :=
  serveConnected (operation none .imgload [trunc 8 idx] noResult) s

/-- IMGTIME_GET (R174): the tick count at offset 4, divided by the fixed divisor (R173). -/
def execImgtimeGet (start count : Nat) (s : State) : Host.Outcome State Fault Refusal :=
  serveConnected (operation none .imgtimeGet [trunc 8 start, trunc 8 count] fun s =>
    parsed (rxTick s.rx resultOffset) (fun t s => (s, .time (ticksToTime t))) s) s

/-- DISPMODE_GET (R175). -/
def execDispmodeGet (s : State) : Host.Outcome State Fault Refusal :=
  serveConnected (operation none .dispmodeGet [] fun s =>
    parsed (rxBits s.rx resultOffset 1) (fun v s => ({ s with snap := { s.snap with dispmode := some v } }, .bit v)) s) s

/-- DISPMODE_SET (R176): it does not write `SNAP.DISPMODE` (10_state.md R25). -/
def execDispmodeSet (m : Bool) (s : State) : Host.Outcome State Fault Refusal :=
  serveConnected (operation none .dispmodeSet [flagNat m] noResult) s

end Sys2Proof.Machine
end

