-- ==== Sys2Proof/Machine/Dispatch.lean ====
section
/-! DEFINITION. The one match from a request to its meaning. -/

namespace Sys2Proof.Machine

/-- The meaning of a request: one arm per constructor of `Instr`. -/
def exec (i : Instr) (s : State) : Host.Outcome State Fault Refusal :=
  match i with
  | .hwstatGet => Sys2Proof.Machine.execHwstatGet s
  | .sysstatGet => Sys2Proof.Machine.execSysstatGet s
  | .mainstatGet => Sys2Proof.Machine.execMainstatGet s
  | .swreset => Sys2Proof.Machine.execSwreset s
  | .standbySet f => Sys2Proof.Machine.execStandbySet f s
  | .bufswap f => Sys2Proof.Machine.execBufswap f s
  | .buffreezeSet f => Sys2Proof.Machine.execBuffreezeSet f s
  | .bufwrdisSet f => Sys2Proof.Machine.execBufwrdisSet f s
  | .curbufGet => Sys2Proof.Machine.execCurbufGet s
  | .insrcGet => Sys2Proof.Machine.execInsrcGet s
  | .insrcSet src => Sys2Proof.Machine.execInsrcSet src s
  | .imgload idx => Sys2Proof.Machine.execImgload idx s
  | .imgtimeGet start count => Sys2Proof.Machine.execImgtimeGet start count s
  | .dispmodeGet => Sys2Proof.Machine.execDispmodeGet s
  | .dispmodeSet m => Sys2Proof.Machine.execDispmodeSet m s
  | .trigmodeSet mode => Sys2Proof.Machine.execTrigmodeSet mode s
  | .trigout1Set pol d0 d1 => Sys2Proof.Machine.execTrigout1Set pol d0 d1 s
  | .patsrcSet src => Sys2Proof.Machine.execPatsrcSet src s
  | .patseqCtl act => Sys2Proof.Machine.execPatseqCtl act s
  | .exposureSet exp longer => Sys2Proof.Machine.execExposureSet exp longer s
  | .lutctlSet entries rep patternCount flashImages => Sys2Proof.Machine.execLutctlSet entries rep patternCount flashImages s
  | .lutofsSet ofs => Sys2Proof.Machine.execLutofsSet ofs s
  | .mboxOpen fn => Sys2Proof.Machine.execMboxOpen fn s
  | .mboxClose => Sys2Proof.Machine.execMboxClose s
  | .idxlistWr idx => Sys2Proof.Machine.execIdxlistWr idx s
  | .patlutWr raw => Sys2Proof.Machine.execPatlutWr raw s
  | .ledenGet => Sys2Proof.Machine.execLedenGet s
  | .ledpolGet => Sys2Proof.Machine.execLedpolGet s
  | .ledcurGet => Sys2Proof.Machine.execLedcurGet s
  | .ledcurSet r g b strict => Sys2Proof.Machine.execLedcurSet r g b strict s
  | .gpioCfg pin state buftype dir dis => Sys2Proof.Machine.execGpioCfg pin state buftype dir dis s
  | .gpioGet pin => Sys2Proof.Machine.execGpioGet pin s
  | .validStart => Sys2Proof.Machine.execValidStart s
  | .validGet => Sys2Proof.Machine.execValidGet s
  | .encode cmd2 cmd3 payload readonly reply useSequence => Sys2Proof.Machine.execEncode cmd2 cmd3 payload readonly reply useSequence s
  | .decode p => Sys2Proof.Machine.execDecode p s
  | .connect => Sys2Proof.Machine.execConnect s
  | .disconnect => Sys2Proof.Machine.execDisconnect s
  | .upload raw idx exp longer mode rep => Sys2Proof.Machine.execUpload raw idx exp longer mode rep s
  | .validate maxAttempts => Sys2Proof.Machine.execValidate maxAttempts s
  | .pollstat retries => Sys2Proof.Machine.execPollstat retries s

end Sys2Proof.Machine
end

