-- ==== Sys2Proof/Machine/HostPort.lean ====
section
/-! DEFINITION. The host port (10_state.md R32): which request comes next, and the requests that are no row of the
opcode table: the read of a snapshot field, the identity queries, and an unknown mnemonic. -/

namespace Sys2Proof.Machine

/-- The content of a snapshot field, where a query has written it (10_state.md R27). -/
def Snapshot.get (snap : Snapshot) : SnapField → Option Value
  | .hw => snap.hw.map .byte
  | .sys => snap.sys.map .byte
  | .main => snap.main.map .byte
  | .dispmode => snap.dispmode.map .bit
  | .insrc => snap.insrc.map .source
  | .ledR => snap.ledR.map .byte
  | .ledG => snap.ledG.map .byte
  | .ledB => snap.ledB.map .byte

/-- A host read of a snapshot field: its value, or refused when the field is absent, both as the spec states them
(10_state.md R27, 60_exceptions.md R288, vector T161). It changes nothing but the host port's output. -/
def readSnapshot (f : SnapField) (s : State) : Host.Outcome State Fault Refusal :=
  accept (fun s =>
    match s.snap.get f with
    | some v => .next (deliver (s, .ok v))
    | none => .refused (.snapshotAbsent f)) s

/-- An identity query: the transport's answer is passed to the host unchanged and stored nowhere (10_state.md R34;
log 19). -/
def askIdentity (which : IdentityString) (s : State) : Host.Outcome State Fault Refusal :=
  accept (fun s => .next (deliver (queryIdentity which s, .ok (.identity (identityAnswer which s))))) s

/-- Serve one request of the host. That ENCODE and DECODE come on this port too is the model's choice (log 33). -/
def serve (r : HostRequest) (s : State) : Host.Outcome State Fault Refusal :=
  match r with
  | .run i => exec i s
  | .readSnap f => readSnapshot f s
  | .identity which => askIdentity which s
  | .unknown _ => .refused .unknownMnemonic

/-- The next request on the host port and the state without it; none while the host has presented nothing. -/
def nextRequest (s : State) : Option (HostRequest × State) :=
  match s.requests with
  | [] => none
  | r :: rest => some (r, { s with requests := rest })

/-- Put a request in front of all others, so that it is the next one served. -/
def present (r : HostRequest) (s : State) : State := { s with requests := r :: s.requests }

/-- The session as it is once the host has connected it: no procedure in progress, and where it was not connected, an
`open` that the transport answered with a handle (70_reset_and_hazards.md R324, 45_procedures.md R250; log 14). -/
def linked (s : State) : State :=
  { s with connected := true, ustep := none,
           history := if s.connected then s.history
             else s.history ++ [.opened s.params.vendorId s.params.productId .handle] }

/-- The host request that a word numbered as the opcode table numbers it stands for, under the machine's own binding; a
word of no row is an unknown mnemonic (30_encoding.md R98, R99; log 15). -/
def requestOfWord (p : Params) (nbits w : Nat) : HostRequest :=
  match decodeWordWith p nbits w with
  | some i => .run i
  | none => .unknown "no request of the binding"

end Sys2Proof.Machine
end

