-- ==== Sys2Proof/Machine/Step.lean ====
section
/-! DEFINITION. One step of the machine: it serves the next request of the host, from acceptance to outcome, or waits
(00_scope.md R2, 10_state.md R32, 70_reset_and_hazards.md R321; log 1, 14). -/

namespace Sys2Proof.Machine

/-- One step. With no request presented the block waits and nothing changes (70_reset_and_hazards.md R321). -/
def step (s : State) : Host.Outcome State Fault Refusal :=
  match nextRequest s with
  | none => .next s
  | some (r, s') => serve r s'

/-- The state in which the next step runs the request that the given word stands for (log 14, 15). The block fetches no
instruction (10_state.md R28): this stands for all the host does so that the request runs, which is to have the session
connected and to present the request. -/
def State.withFetchWord (s : State) (nbits w : Nat) : State := present (requestOfWord s.params nbits w) (linked s)

end Sys2Proof.Machine
end

