-- ==== Sys2Proof/Safety.lean ====
section
/-! DEFINITION. The terms in which claims speak of safe runs: what a state at rest is, the state after one access, what a legal transport history is,
the invariant every step keeps, what an observer that cannot see the trace port sees, and runs over several requests. -/

namespace Sys2Proof.Machine

/-- Between requests nothing is in progress and both buffers are empty (10_state.md R38, R39). -/
abbrev AtRest (s : State) : Prop := s.ustep = none ∧ s.tx = [] ∧ s.rx = []

/-- The `reply` bit of a packet, bit 6 of byte 1 (30_encoding.md R82). -/
def replyBit : List Byte → Bool
  | _ :: flags :: _ => flags.getLsbD 6
  | _ => false

/-- The bytes are a packet of the one format (30_encoding.md R80): report id 0x00, flags bits 5..0 zero, and the length
field of the bytes that follow it, modulo 65536. -/
def packetForm : List Byte → Bool
  | id :: flags :: _ :: lo :: hi :: _ :: _ :: payload =>
    id == 0x00 && (flags &&& 0x3F) == 0x00 &&
    lo == BitVec.ofNat 8 (payload.length + 2) && hi == BitVec.ofNat 8 ((payload.length + 2) / 256)
  | _ => false

/-- Replay a transport history from a value of `CONNECTED`: the value it ends with, or nothing when the block could not
have produced it. `open` only while not connected, and followed by `close` when it failed (45_procedures.md R250, R251);
`close` and writes only while connected (R252, 40_framer.md R127); every write is a packet of the one format; a read
directly after exactly the accepted writes that ask for a reply (30_encoding.md R93). -/
def replay : Bool → List TransportEvent → Option Bool
  | c, [] => some c
  | c, .opened _ _ answer :: rest =>
    match c, answer, rest with
    | false, .handle, rest => replay true rest
    | false, .failure, .closed :: rest' => replay false rest'
    | _, _, _ => none
  | c, .closed :: rest => if c then replay false rest else none
  | c, .wrote packet answer :: rest =>
    if c && packetForm packet then
      if answer == .count packet.length && replyBit packet then
        match rest with
        | .read _ _ _ :: rest' => replay true rest'
        | _ => none
      else replay true rest
    else none
  | _, .read _ _ _ :: _ => none
  | c, .identity _ _ :: rest => replay c rest

/-- Every read of the history asked for `RX_MAXLEN` bytes and got no more (20_memory.md R55). -/
def readsBounded (p : Params) (h : List TransportEvent) : Bool :=
  h.all fun e => match e with
    | .read maxLength timeoutMs (.bytes r) => maxLength == p.rxMaxLen && timeoutMs == p.rxTimeoutMs && r.length ≤ p.rxMaxLen
    | .read maxLength timeoutMs .failure => maxLength == p.rxMaxLen && timeoutMs == p.rxTimeoutMs
    | _ => true

/-- The invariant of the block: it is at rest, its binding meets 00_scope.md R6, its history is one it can have produced
and `CONNECTED` is what that history says (10_state.md R22), and no response is longer than `RX_MAXLEN`. -/
structure Inv (s : State) : Prop where
  atRest    : AtRest s
  paramsWf  : s.params.Wf
  history   : replay false s.history = some s.connected
  bounded   : readsBounded s.params s.history = true

/-- What is left of a state for an observer who sees neither the trace port nor `CFG` nor `POLL_DELAY`. -/
def State.hideTrace (s : State) : State :=
  { s with cfg := { debug := false, dryrun := false }, trace := [], params := { s.params with pollDelay := 0 } }

/-- An outcome of a step with the state seen through a view. -/
def viewOutcome (view : State → State) : Host.Outcome State Fault Refusal → Host.Outcome State Fault Refusal
  | .next s => .next (view s)
  | .fault f => .fault f
  | .refused r => .refused r

/-- The packets written in a stretch of history, in order. -/
def packetsWritten (h : List TransportEvent) : List (List Byte) :=
  h.filterMap fun e => match e with
    | .wrote packet _ => some packet
    | _ => none

/-- The reads made in a stretch of history. -/
def readsMade (h : List TransportEvent) : Nat :=
  h.countP fun e => match e with
    | .read _ _ _ => true
    | _ => false

/-- The state after the packet `p` has been traced and handed to the transport, its answer recorded. -/
def afterWrite (s : State) (p : List Byte) : State :=
  { s with env := { s.env with writes := s.env.writes.tail }, draws := s.draws + 1,
           history := s.history ++ [.wrote p (writeAnswer p s)],
           trace := if s.cfg.debug then s.trace ++ [.tx p] else s.trace, tx := [], rx := [] }

/-- The state after one read, its answer recorded and, when it is a response, traced. -/
def afterRead (s : State) : State :=
  { s with env := { s.env with reads := s.env.reads.tail }, draws := s.draws + 1,
           history := s.history ++ [.read s.params.rxMaxLen s.params.rxTimeoutMs (readAnswer s)],
           trace := match readAnswer s with
             | .bytes r => if s.cfg.debug then s.trace ++ [.rx r] else s.trace
             | .failure => s.trace }

/-- Serve requests one after another; nothing when one of them is refused. -/
def serveAll : List Instr → State → Option State
  | [], s => some s
  | i :: rest, s =>
    match exec i s with
    | .next s' => serveAll rest s'
    | _ => none

end Sys2Proof.Machine
end

