-- ==== Sys2Proof/Certificates/Slice0/Obligations.lean ====
section
/-! DEFINITION. The statements for the provers. The helpers in `Sys2Proof.Claims` are written from the rules of spec/,
not from the meanings: the bytes of a packet, the state after a packet has been handed to the transport, and the events
of a run of queries. Every equation below gives the WHOLE next state, so it says at once what a request changes and that
it changes nothing else. No statement rests on the value of `draws` or of a free answer. -/

namespace Sys2Proof.Claims

open Sys2Proof.Machine

/-- No procedure is in progress and the block is connected: the precondition of 40_framer.md R127 and 60_exceptions.md R288. -/
abbrev Ready (s : State) : Prop := s.ustep = none ∧ s.connected = true

/-- A packet byte by byte (30_encoding.md R80): 0x00, flags, sequence number, the payload length plus 2 with its low byte
first, cmd3, cmd2, payload. -/
def packetOf (flags seq : Byte) (c : Code) (payload : List Byte) : List Byte :=
  [0x00, flags, seq, BitVec.ofNat 8 (payload.length + 2), BitVec.ofNat 8 ((payload.length + 2) / 256), c.cmd3, c.cmd2] ++ payload

/-- The packet of a class Q operation: `00 C0 00 …` (30_encoding.md R90). -/
def queryPacket (s : State) (op : Op) (payload : List Byte) : List Byte := packetOf 0xC0 0x00 (s.params.code op) payload

/-- The packet of a class F operation: `00 00 00 …` (30_encoding.md R90). -/
def firePacket (s : State) (op : Op) (payload : List Byte) : List Byte := packetOf 0x00 0x00 (s.params.code op) payload

/-- The packet of a class A operation: `00 ff SEQ …`, `ff` = 0x40 when `ACK_REPLY = 1`, else 0x00 (30_encoding.md R90, R92). -/
def ackPacket (s : State) (op : Op) (payload : List Byte) : List Byte :=
  packetOf (if s.params.ackReply then 0x40 else 0x00) s.seq (s.params.code op) payload

/-- A flag as the byte 0 or 1. -/
def flag (f : Bool) : Byte := if f then 1 else 0

/-- The state after one write of `p` and one read. -/
def afterQuery (s : State) (p : List Byte) : State := afterRead (afterWrite s p)

/-- The transport accepts the whole packet `p` and answers the read after it with the response `r`. -/
abbrev Answers (s : State) (p r : List Byte) : Prop :=
  writeAccepted p s = true ∧ readAnswer (afterWrite s p) = .bytes r

/-- The request ends in the state `s` with the given outcome. -/
def ends (s : State) (o : Except Ending Value) : Host.Outcome State Fault Refusal := .next { s with outcome := some o }

/-- The request ends as `o` says when the query that it runs in the state `u`, with the packet `p` and a parser that needs
`need` bytes, does not end Ok: with that query's outcome, after its accesses and no others, no snapshot field written
(60_exceptions.md R280, R282, R287). -/
def QueryStops (o : Host.Outcome State Fault Refusal) (u : State) (p : List Byte) (need : Nat) : Prop :=
  (writeAccepted p u = false → o = ends (afterWrite u p) (.error (.transportError .write))) ∧
  (writeAccepted p u = true → readAnswer (afterWrite u p) = .failure →
    o = ends (afterQuery u p) (.error (.transportError .read))) ∧
  (∀ r, Answers u p r → r.length < need → o = ends (afterQuery u p) (.error .responseUnderrun))

/-- How a query whose packet is `p` and whose parser needs `need` bytes ends when it does not end Ok. -/
def QueryFailures (i : Instr) (s : State) (p : List Byte) (need : Nat) : Prop := QueryStops (exec i s) s p need

/-- What a class F operation whose packet is `p` does: one write, no read, no register written. -/
def FireEffect (i : Instr) (s : State) (p : List Byte) : Prop :=
  (writeAccepted p s = true → exec i s = ends (afterWrite s p) (.ok .none)) ∧
  (writeAccepted p s = false → exec i s = ends (afterWrite s p) (.error (.transportError .write)))

/-- What a class A operation whose packet is `p` does: `SEQ` advances by 1 modulo 256 when the packet is built, one
write, and when `ACK_REPLY = 1` one read whose response is discarded unexamined (40_framer.md R122, R126, R129). -/
def AckEffect (i : Instr) (s : State) (p : List Byte) : Prop :=
  let w : State := { afterWrite s p with seq := s.seq + 1 }
  (writeAccepted p s = false → exec i s = ends w (.error (.transportError .write))) ∧
  (writeAccepted p s = true → s.params.ackReply = false → exec i s = ends w (.ok .none)) ∧
  (writeAccepted p s = true → s.params.ackReply = true → readAnswer w = .failure →
    exec i s = ends (afterRead w) (.error (.transportError .read))) ∧
  (writeAccepted p s = true → s.params.ackReply = true → ∀ r, readAnswer w = .bytes r →
    exec i s = ends (afterRead w) (.ok .none))

/-- The four bytes of `LE32(v)` (00_scope.md R7, R8). -/
def le32Bytes (v : Nat) : List Byte :=
  [BitVec.ofNat 8 v, BitVec.ofNat 8 (v / 256), BitVec.ofNat 8 (v / 65536), BitVec.ofNat 8 (v / 16777216)]

/-- Byte `off` of a byte string, for strings that have it. -/
def byteAt (r : List Byte) (off : Nat) : Byte := r.getD off 0

/-- The events of writes that are each accepted and answered by one response, in order. -/
def exchanges (p : Params) (steps : List (List Byte × List Byte)) : List TransportEvent :=
  steps.flatMap fun (packet, r) => [.wrote packet (.count packet.length), .read p.rxMaxLen p.rxTimeoutMs (.bytes r)]

/-- The events of class A packets that are each accepted and, with `ACK_REPLY = 1`, answered by one response, in order. -/
def acknowledgements (p : Params) (steps : List (List Byte × List Byte)) : List TransportEvent :=
  steps.flatMap fun (packet, r) =>
    .wrote packet (.count packet.length) ::
      (if p.ackReply then [.read p.rxMaxLen p.rxTimeoutMs (.bytes r)] else [])

/-- Class A packets sent one after another: each advances `SEQ` (40_framer.md R122), and the first that the transport
does not accept, or with `ACK_REPLY = 1` does not answer, ends the request (45_procedures.md R255). -/
def sendInOrder : List (List Byte) → State → Host.Outcome State Fault Refusal
  | [], s => ends s (.ok .none)
  | p :: rest, s =>
    let w : State := { afterWrite s p with seq := s.seq + 1 }
    if writeAccepted p s then
      if s.params.ackReply then
        match readAnswer w with
        | .failure => ends (afterRead w) (.error (.transportError .read))
        | .bytes _ => sendInOrder rest (afterRead w)
      else sendInOrder rest w
    else ends w (.error (.transportError .write))

/-- The responses of a stretch of history, in order. -/
def responsesRead (h : List TransportEvent) : List (List Byte) :=
  h.filterMap fun e => match e with
    | .read _ _ (.bytes r) => some r
    | _ => none

/-- The trace events of a stretch of history: every packet sent and every response read (10_state.md R35). -/
def traceOf (h : List TransportEvent) : List TraceEvent :=
  h.filterMap fun e => match e with
    | .wrote packet _ => some (.tx packet)
    | .read _ _ (.bytes r) => some (.rx r)
    | _ => none

/-- What the trace port gains from a stretch of history. -/
def traced (s : State) (h : List TransportEvent) : List TraceEvent := if s.cfg.debug then traceOf h else []

/-- The cancel input, where it exists, is 0 at the next `k` samples; `rest` are the samples after them. -/
abbrev QuietCancel (s : State) (k : Nat) (rest : List Bool) : Prop :=
  s.env.cancels = (if s.params.hasCancel then List.replicate k false ++ rest else rest)

/-- How many samples `k` attempts take. -/
def samples (s : State) (k : Nat) : Nat := if s.params.hasCancel then k else 0

/-- The packet of one of the three status queries, or of any query without payload: 7 bytes. -/
def plainQuery (p : Params) (op : Op) : List Byte := [0x00, 0xC0, 0x00, 0x02, 0x00, (p.code op).cmd3, (p.code op).cmd2]

/-- The exchanges of one attempt of POLLSTAT: hardware, system, main (45_procedures.md R261). -/
def statusExchanges (p : Params) (a : List Byte × List Byte × List Byte) : List (List Byte × List Byte) :=
  [(plainQuery p .hwstatGet, a.1), (plainQuery p .sysstatGet, a.2.1), (plainQuery p .mainstatGet, a.2.2)]

/-- The three responses of an attempt are whole. -/
abbrev WholeAttempt (p : Params) (a : List Byte × List Byte × List Byte) : Prop :=
  (5 ≤ a.1.length ∧ a.1.length ≤ p.rxMaxLen) ∧ (5 ≤ a.2.1.length ∧ a.2.1.length ≤ p.rxMaxLen) ∧
  (5 ≤ a.2.2.length ∧ a.2.2.length ≤ p.rxMaxLen)

/-- The attempt reports nominal hardware and system bytes (45_procedures.md R262). -/
abbrev Nominal (p : Params) (a : List Byte × List Byte × List Byte) : Prop :=
  byteAt a.1 4 = p.hwNominal ∧ byteAt a.2.1 4 = p.sysNominal

/-- The snapshot after an attempt. -/
def snapAfter (snap : Snapshot) (a : List Byte × List Byte × List Byte) : Snapshot :=
  { snap with hw := some (byteAt a.1 4), sys := some (byteAt a.2.1 4), main := some (byteAt a.2.2 4) }

/-- The state after whole exchanges that add `new` to the history, with what is left of the environment's script; the
buffers are empty after the first of them. -/
def afterExchanges (s : State) (new : List TransportEvent) (draws : Nat) (ws : List WriteAnswer) (rs : List ReadAnswer)
    (cs : List Bool) : State :=
  { s with env := { s.env with writes := ws, reads := rs, cancels := cs }, draws := s.draws + draws,
           history := s.history ++ new, trace := s.trace ++ traced s new,
           tx := if new.isEmpty then s.tx else [], rx := if new.isEmpty then s.rx else [] }

/-- The snapshot after completed queries of POLLSTAT with these responses: hardware, system, main, and again
(45_procedures.md R261). -/
def storeStatuses : Snapshot → List (List Byte) → Snapshot
  | snap, hw :: sys :: main :: rest =>
    storeStatuses { snap with hw := some (byteAt hw 4), sys := some (byteAt sys 4), main := some (byteAt main 4) } rest
  | snap, [hw, sys] => { snap with hw := some (byteAt hw 4), sys := some (byteAt sys 4) }
  | snap, [hw] => { snap with hw := some (byteAt hw 4) }
  | snap, [] => snap

/-- The responses of attempts in the order they are read. -/
def responsesOf (as : List (List Byte × List Byte × List Byte)) : List ReadAnswer :=
  as.flatMap fun a => [.bytes a.1, .bytes a.2.1, .bytes a.2.2]

/-- The pre-flight check of UPLOAD passes (45_procedures.md R253). -/
abbrev PreflightPasses (raw idx : List Nat) (mode : Nat) : Prop :=
  (raw.length ≠ 0 ∧ raw.length % 3 = 0) ∧ (1 ≤ idx.length ∧ idx.length ≤ raw.length / 3) ∧ mode ≤ 4

/-- The twelve packets of UPLOAD from `SEQ = S` (45_procedures.md R254, R256): the sequence numbers are
`S, S+1, …, S+11` modulo 256. -/
def uploadPackets (s : State) (raw idx : List Nat) (exp : Nat) (longer : Bool) (mode : Nat) (rep : Bool) :
    List (List Byte) :=
  let flags : Byte := if s.params.ackReply then 0x40 else 0x00
  let e := raw.length / 3
  let packet (k : Nat) (op : Op) (payload : List Byte) := packetOf flags (s.seq + BitVec.ofNat 8 k) (s.params.code op) payload
  [packet 0 .patsrcSet [3],
   packet 1 .lutctlSet [BitVec.ofNat 8 (e + 255), flag rep, BitVec.ofNat 8 (e + 255), BitVec.ofNat 8 (idx.length + 255)],
   packet 2 .exposureSet (le32Bytes exp ++ le32Bytes (if longer then exp + 230 else exp)),
   packet 3 .trigmodeSet [BitVec.ofNat 8 mode],
   packet 4 .mboxOpen [BitVec.ofNat 8 s.params.mboxFnPattern],
   packet 5 .lutofsSet [0],
   packet 6 .patlutWr (raw.map (BitVec.ofNat 8)),
   packet 7 .mboxClose [s.params.mboxCloseCode],
   packet 8 .mboxOpen [BitVec.ofNat 8 s.params.mboxFnImage],
   packet 9 .lutofsSet [0],
   packet 10 .idxlistWr (idx.map (BitVec.ofNat 8)),
   packet 11 .mboxClose [s.params.mboxCloseCode]]

/-- The conditions of ConfigurationError, request by request (60_exceptions.md R281). -/
def rejection : Instr → Option ConfigCause
  | .trigmodeSet mode => if mode > 4 then some .triggerMode else none
  | .patsrcSet src => if src = 0 ∨ src = 3 then none else some .patternInputSource
  | .mboxOpen fn => if fn = 1 ∨ fn = 2 ∨ fn = 3 then none else some .mailboxFunction
  | .ledcurSet r g b strict =>
    if r > 255 ∨ g > 255 ∨ b > 255 ∨ (strict = true ∧ 69 * r + 71 * g + 63 * b + 9611 > 42000) then some .ledCurrent
    else none
  | .upload raw idx _ _ mode _ =>
    if raw.length = 0 ∨ raw.length % 3 ≠ 0 then some .sequenceShape
    else if idx.length < 1 ∨ idx.length > raw.length / 3 then some .flashIndexCount
    else if mode > 4 then some .triggerMode else none
  | _ => none

/-- The request sends packets, alone or as a procedure of operations: it needs a connection (40_framer.md R127,
70_reset_and_hazards.md R324). -/
def needsConnection : Instr → Bool
  | .encode .. | .decode _ | .connect | .disconnect => false
  | _ => true

/-- The operation is one of the ten class A operations (30_encoding.md R100). -/
def isAcknowledged : Instr → Bool
  | .trigmodeSet _ | .trigout1Set .. | .patsrcSet _ | .exposureSet .. | .lutctlSet .. | .lutofsSet _ => true
  | .mboxOpen _ | .mboxClose | .idxlistWr _ | .patlutWr _ => true
  | _ => false

/-- The request sends class A packets: a class A operation, or UPLOAD, which sends no others. -/
def sendsAcknowledged : Instr → Bool
  | .upload .. => true
  | i => isAcknowledged i

/-- The request is one of the 34 dispatcher operations. -/
abbrev IsOperation (p : Params) (i : Instr) : Prop := (i.wire p).isSome = true

/-- Byte 2 of each packet that a run of operations sends from `SEQ = S`: `S`, `S+1`, … for the class A operations, 0 for
the others, nothing for one that ends with ConfigurationError (40_framer.md R133). -/
def byte2Run : Byte → List Instr → List Byte
  | _, [] => []
  | S, i :: rest =>
    if (rejection i).isSome then byte2Run S rest
    else if isAcknowledged i then S :: byte2Run (S + 1) rest
    else 0 :: byte2Run S rest

/-- The number of class A operations of a run that reach ENCODE (40_framer.md R133). -/
def acknowledgedCount (is : List Instr) : Nat := is.countP fun i => isAcknowledged i && (rejection i).isNone

/-- The non-normative reference binding (93_implementation_defined.md G1, G2), `ACK_REPLY` taken as 1. A statement under
it says so. -/
def referenceBinding : Params where
  seqInit := 0
  ackReply := true
  codes := #v[⟨0x1A, 0x0A⟩, ⟨0x1A, 0x0B⟩, ⟨0x1A, 0x0C⟩, ⟨0x08, 0x02⟩, ⟨0x02, 0x00⟩, ⟨0x1A, 0x25⟩, ⟨0x10, 0x0A⟩,
    ⟨0x1A, 0x26⟩, ⟨0x1A, 0x27⟩, ⟨0x1A, 0x00⟩, ⟨0x1A, 0x00⟩, ⟨0x1A, 0x39⟩, ⟨0x1A, 0x3A⟩, ⟨0x1A, 0x1B⟩, ⟨0x1A, 0x1B⟩,
    ⟨0x1A, 0x23⟩, ⟨0x1A, 0x1D⟩, ⟨0x1A, 0x22⟩, ⟨0x1A, 0x24⟩, ⟨0x1A, 0x29⟩, ⟨0x1A, 0x31⟩, ⟨0x1A, 0x32⟩, ⟨0x1A, 0x33⟩,
    ⟨0x1A, 0x33⟩, ⟨0x1A, 0x34⟩, ⟨0x1A, 0x34⟩, ⟨0x1A, 0x07⟩, ⟨0x1A, 0x05⟩, ⟨0x0B, 0x01⟩, ⟨0x0B, 0x01⟩, ⟨0x1A, 0x38⟩,
    ⟨0x1A, 0x38⟩, ⟨0x1A, 0x1A⟩, ⟨0x1A, 0x1A⟩]
  swresetByte := 1
  patseqStart := 2
  patseqPause := 1
  patseqStop := 0
  mboxFnPattern := 2
  mboxFnImage := 1
  mboxCloseCode := 0
  validStartPayload := [0]
  trigout1PolBit := 1
  rxMaxLen := 64
  rxTimeoutMs := 0
  vendorId := 0x0451
  productId := 0x6401
  pollDelay := 0
  hasCancel := false
  hwNominal := 1
  sysNominal := 1

end Sys2Proof.Claims

section

open Sys2Proof Sys2Proof.Machine Sys2Proof.Claims

/-! Reset, the step, the codec. -/

/-- 10_state.md R39, 70_reset_and_hazards.md R320, R321: after construction `SEQ = SEQ_INIT`, `CONNECTED = 0`, the
configuration as given, every snapshot field absent, no operation in progress, buffers and history empty. -/
def Obligations.ResetIsConstruction : Prop :=
  (∀ (c : Cfg) (p : Params),
    let s := State.construct c p
    s.seq = p.seqInit ∧ s.connected = false ∧ s.cfg = c ∧ s.params = p ∧
    (∀ f : SnapField, s.snap.get f = none) ∧ s.ustep = none ∧ s.tx = [] ∧ s.rx = [] ∧ s.history = []) ∧
  ∃ c p, State.reset = State.construct c p ∧ p.Wf

/-- 10_state.md R32, 70_reset_and_hazards.md R321: a step serves the request that the host presented first, exactly as
`exec` says for a request of the table, and the block waits while there is none. That requests come as a list is the
model's choice (log 14). -/
def Obligations.StepServesTheNextRequest : Prop :=
  (∀ s : State, s.requests = [] → step s = .next s) ∧
  (∀ (s : State) (i : Instr) (rest : List HostRequest), s.requests = .run i :: rest →
    step s = exec i { s with requests := rest })

/-- A step runs the decoded request (log 14, 15): where a word numbered as the opcode table numbers it decodes to a request
under the machine's binding, the step of the machine that was handed that word is `exec` of that request in the session
as the host has connected it, and it answers a next state. -/
def Obligations.StepRunsTheDecodedWord : Prop :=
  ∀ (s : State) (nbits w : Nat) (i : Instr), decodeWordWith s.params nbits w = some i →
    let linked : State :=
      { s with connected := true, ustep := none,
               history := if s.connected then s.history
                 else s.history ++ [.opened s.params.vendorId s.params.productId .handle] }
    step (s.withFetchWord nbits w) = exec i linked ∧ ∃ t, exec i linked = .next t

/-- Packets written out from 30_encoding.md R80 and R100, with the command bytes of the reference binding
(93_implementation_defined.md G1, not normative), decode to the operations they stand for. Naming an operation by
`decodePacket` is the model's choice (log 16). -/
def Obligations.SpecPacketsDecode : Prop :=
  decodePacket referenceBinding [0x00, 0xC0, 0x00, 0x02, 0x00, 0x0A, 0x1A] = .ok .hwstatGet ∧
  decodePacket referenceBinding [0x00, 0x40, 0xFF, 0x03, 0x00, 0x23, 0x1A, 0x01] = .ok (.trigmodeSet 1) ∧
  decodePacket referenceBinding [0x00, 0x00, 0x00, 0x04, 0x00, 0x38, 0x1A, 0x0C, 0x28] = .ok (.gpioCfg 12 true false true false) ∧
  decodePacket referenceBinding [0x00, 0x40, 0x05, 0x0A, 0x00, 0x29, 0x1A, 0xA0, 0x86, 0x01, 0x00, 0x86, 0x87, 0x01, 0x00] =
    .ok (.exposureSet 100000 true) ∧
  decodePacket referenceBinding [0x00, 0xC0, 0x00, 0x02, 0x00, 0x0A] = .error (.malformed .short) ∧
  decodePacket referenceBinding [0x01, 0xC0, 0x00, 0x02, 0x00, 0x0A, 0x1A] = .error (.malformed .reportid) ∧
  decodePacket referenceBinding [0x00, 0xC0, 0x00, 0x02, 0x00, 0xEE, 0xEE] = .error .unknownCommand

/-- 40_framer.md R120, R122: ENCODE is always Ok; its packet has the fields of R80, each narrowed; `SEQ` advances by 1
modulo 256 exactly when `useSequence` is 1, and nothing else changes; the transient buffers
are empty afterwards. -/
def Obligations.EncodeBuildsThePacket : Prop :=
  ∀ (s : State) (cmd2 cmd3 : Nat) (payload : List Nat) (readonly reply useSequence : Bool), s.ustep = none →
    exec (.encode cmd2 cmd3 payload readonly reply useSequence) s =
      ends { s with tx := [], rx := [], seq := if useSequence then s.seq + 1 else s.seq }
        (.ok (.packet (packetOf ((if readonly then 0x80 else 0x00) + (if reply then 0x40 else 0x00))
          (if useSequence then s.seq else 0) ⟨BitVec.ofNat 8 cmd2, BitVec.ofNat 8 cmd3⟩ (payload.map (BitVec.ofNat 8)))))

/-- 40_framer.md R123, R124: DECODE returns the fields of a well-formed packet and FrameError with its cause on every
other byte string; it changes no state. -/
def Obligations.DecodeReturnsFieldsOrFrameError : Prop :=
  ∀ (s : State) (p : List Byte), s.ustep = none →
    (p.length < 7 → exec (.decode p) s = ends s (.error (.frameError .short))) ∧
    (7 ≤ p.length → byteAt p 0 ≠ 0x00 → exec (.decode p) s = ends s (.error (.frameError .reportid))) ∧
    (7 ≤ p.length → byteAt p 0 = 0x00 →
      let L := (byteAt p 3).toNat + 256 * (byteAt p 4).toNat
      ((L < 2 ∨ p.length ≠ 5 + L) → exec (.decode p) s = ends s (.error (.frameError .length))) ∧
      (2 ≤ L → p.length = 5 + L →
        exec (.decode p) s = ends s (.ok (.frame
          { readonly := (byteAt p 1).getLsbD 7, reply := (byteAt p 1).getLsbD 6, seq := byteAt p 2,
            cmd3 := byteAt p 5, cmd2 := byteAt p 6, payload := p.drop 7 }))))

/-- 40_framer.md R125: for operands in range, DECODE of what ENCODE returned gives the same fields back, with `seq` equal
to 0 or to the value `SEQ` held before the call. -/
def Obligations.EncodeThenDecodeRecoversTheFields : Prop :=
  ∀ (s : State) (cmd2 cmd3 : Nat) (payload : List Nat) (readonly reply useSequence : Bool),
    s.ustep = none → cmd2 < 256 → cmd3 < 256 → (∀ b ∈ payload, b < 256) → payload.length ≤ 65533 →
    ∃ (t u : State) (packet : List Byte) (f : Frame),
      exec (.encode cmd2 cmd3 payload readonly reply useSequence) s = .next t ∧ t.outcome = some (.ok (.packet packet)) ∧
      exec (.decode packet) t = .next u ∧ u.outcome = some (.ok (.frame f)) ∧
      f.cmd2.toNat = cmd2 ∧ f.cmd3.toNat = cmd3 ∧ f.payload.map BitVec.toNat = payload ∧
      f.readonly = readonly ∧ f.reply = reply ∧ f.seq = (if useSequence then s.seq else 0)

/-- 40_framer.md R121, 30_encoding.md R85: a payload of any length is sent whole; the length field is `n + 2` modulo
65536 and is true up to 65533 bytes; above that DECODE does not return the fields that were encoded. -/
def Obligations.LengthFieldWrapsAbove65533 : Prop :=
  ∀ (readonly reply : Bool) (seq cmd3 cmd2 : Byte) (payload : List Byte),
    let p := encodeFrame ⟨readonly, reply, seq, cmd3, cmd2, payload⟩
    p.length = 7 + payload.length ∧ p.drop 7 = payload ∧
    (byteAt p 3).toNat + 256 * (byteAt p 4).toNat = (payload.length + 2) % 65536 ∧
    (payload.length ≤ 65533 → decodeFrame p = .ok ⟨readonly, reply, seq, cmd3, cmd2, payload⟩) ∧
    (65534 ≤ payload.length → decodeFrame p = .error .length)

/-- 30_encoding.md R99 to R101: for a packet that DECODE accepts, the requests it may stand for under a binding are
exactly the well-formed requests that are an operation with its command bytes, its `readonly` bit and its payload. That
the set is one of requests with operands is the model's choice (log 16). -/
def Obligations.CandidatesAreExactlyTheSenders : Prop :=
  ∀ (p : Params) (packet : List Byte) (f : Frame) (i : Instr), decodeFrame packet = .ok f →
    (i ∈ candidates p packet ↔
      WellFormed i = true ∧ ∃ op payload, i.wire p = some (op, payload) ∧ f.cmd2 = (p.code op).cmd2 ∧
        f.cmd3 = (p.code op).cmd3 ∧ f.readonly = op.cls.readonly ∧ f.payload = payload.map trunc8)

/-- Decode and encode agree: every well-formed operation, at every operand its encoding admits, is among the requests
that its own packet may stand for (30_encoding.md R99; the set of requests is the model's choice, log 16). -/
def Obligations.EncodedOperationIsRecovered : Prop :=
  ∀ (p : Params) (seq : Byte) (i : Instr) (packet : List Byte), p.Wf → WellFormed i = true → IsOperation p i →
    encode p seq i = some packet → i ∈ candidates p packet

/-- The meaning of every operation sends the packet that the encoder gives it, as its first transport access, unless its
local check rejects it (30_encoding.md R100, 40_framer.md R126, R128). -/
def Obligations.OperationSendsItsEncoding : Prop :=
  ∀ (s : State) (i : Instr), Ready s → IsOperation s.params i → rejection i = none →
    ∃ (t : State) (packet : List Byte) (rest : List TransportEvent),
      exec i s = .next t ∧ encode s.params s.seq i = some packet ∧
      t.history = s.history ++ .wrote packet (writeAnswer packet s) :: rest ∧ packetsWritten rest = []

/-! Class Q operations. -/

/-- 41_status_power_buffer.md R150: HWSTAT_GET. -/
def Obligations.HwstatGetStoresTheStatusByte : Prop :=
  ∀ s : State, Ready s →
    let p := queryPacket s .hwstatGet []
    QueryFailures .hwstatGet s p 5 ∧
    ∀ (h0 h1 h2 h3 v : Byte) (rest : List Byte), Answers s p (h0 :: h1 :: h2 :: h3 :: v :: rest) →
      exec .hwstatGet s =
        ends { afterQuery s p with snap := { s.snap with hw := some v } } (.ok (.byte v))

/-- 41_status_power_buffer.md R151, R152: SYSSTAT_GET and MAINSTAT_GET. -/
def Obligations.SysstatAndMainstatStoreTheirByte : Prop :=
  ∀ s : State, Ready s →
    (let p := queryPacket s .sysstatGet []
     QueryFailures .sysstatGet s p 5 ∧
     ∀ (h0 h1 h2 h3 v : Byte) (rest : List Byte), Answers s p (h0 :: h1 :: h2 :: h3 :: v :: rest) →
      exec .sysstatGet s =
        ends { afterQuery s p with snap := { s.snap with sys := some v } } (.ok (.byte v))) ∧
    (let p := queryPacket s .mainstatGet []
     QueryFailures .mainstatGet s p 5 ∧
     ∀ (h0 h1 h2 h3 v : Byte) (rest : List Byte), Answers s p (h0 :: h1 :: h2 :: h3 :: v :: rest) →
      exec .mainstatGet s =
        ends { afterQuery s p with snap := { s.snap with main := some v } } (.ok (.byte v)))

/-- 41_status_power_buffer.md R158: CURBUF_GET answers bit 0 of the byte and caches nothing. -/
def Obligations.CurbufGetReturnsBitZero : Prop :=
  ∀ s : State, Ready s →
    let p := queryPacket s .curbufGet []
    QueryFailures .curbufGet s p 5 ∧
    ∀ (h0 h1 h2 h3 v : Byte) (rest : List Byte), Answers s p (h0 :: h1 :: h2 :: h3 :: v :: rest) →
      exec .curbufGet s = ends (afterQuery s p) (.ok (.bit (v.extractLsb' 0 1)))

/-- 42_source_image_display.md R170, R175: INSRC_GET and DISPMODE_GET store and answer the low bits of the byte. -/
def Obligations.SourceAndModeQueriesStoreTheLowBits : Prop :=
  ∀ s : State, Ready s →
    (let p := queryPacket s .insrcGet []
     QueryFailures .insrcGet s p 5 ∧
     ∀ (h0 h1 h2 h3 v : Byte) (rest : List Byte), Answers s p (h0 :: h1 :: h2 :: h3 :: v :: rest) →
      exec .insrcGet s =
        ends { afterQuery s p with snap := { s.snap with insrc := some (v.extractLsb' 0 2) } }
          (.ok (.source (v.extractLsb' 0 2)))) ∧
    (let p := queryPacket s .dispmodeGet []
     QueryFailures .dispmodeGet s p 5 ∧
     ∀ (h0 h1 h2 h3 v : Byte) (rest : List Byte), Answers s p (h0 :: h1 :: h2 :: h3 :: v :: rest) →
      exec .dispmodeGet s =
        ends { afterQuery s p with snap := { s.snap with dispmode := some (v.extractLsb' 0 1) } }
          (.ok (.bit (v.extractLsb' 0 1))))

/-- 42_source_image_display.md R173, R174: IMGTIME_GET sends the two narrowed operands and answers the little-endian tick
count at offset 4, divided by 18667. -/
def Obligations.ImgtimeGetDividesTheTickCount : Prop :=
  ∀ (s : State) (start count : Nat), Ready s →
    let p := queryPacket s .imgtimeGet [BitVec.ofNat 8 start, BitVec.ofNat 8 count]
    QueryFailures (.imgtimeGet start count) s p 7 ∧
    ∀ (h0 h1 h2 h3 a b c : Byte) (rest : List Byte), Answers s p (h0 :: h1 :: h2 :: h3 :: a :: b :: c :: rest) →
      exec (.imgtimeGet start count) s =
        ends (afterQuery s p) (.ok (.time ((a.toNat + 256 * b.toNat + 65536 * c.toNat) / 18667)))

/-- 44_led_gpio.md R230, R231: LEDEN_GET and LEDPOL_GET answer the byte and cache nothing. -/
def Obligations.LedEnableAndPolarityReturnTheByte : Prop :=
  ∀ s : State, Ready s →
    (let p := queryPacket s .ledenGet []
     QueryFailures .ledenGet s p 5 ∧
     ∀ (h0 h1 h2 h3 v : Byte) (rest : List Byte), Answers s p (h0 :: h1 :: h2 :: h3 :: v :: rest) →
      exec .ledenGet s = ends (afterQuery s p) (.ok (.byte v))) ∧
    (let p := queryPacket s .ledpolGet []
     QueryFailures .ledpolGet s p 5 ∧
     ∀ (h0 h1 h2 h3 v : Byte) (rest : List Byte), Answers s p (h0 :: h1 :: h2 :: h3 :: v :: rest) →
      exec .ledpolGet s = ends (afterQuery s p) (.ok (.byte v)))

/-- 44_led_gpio.md R232: LEDCUR_GET stores and answers `255 - raw` of the three bytes, red, green, blue, all three or none. -/
def Obligations.LedcurGetInvertsTheRawBytes : Prop :=
  ∀ s : State, Ready s →
    let p := queryPacket s .ledcurGet []
    QueryFailures .ledcurGet s p 7 ∧
    ∀ (h0 h1 h2 h3 r g b : Byte) (rest : List Byte), Answers s p (h0 :: h1 :: h2 :: h3 :: r :: g :: b :: rest) →
      exec .ledcurGet s =
        ends { afterQuery s p with
               snap := { s.snap with ledR := some (255 - r), ledG := some (255 - g), ledB := some (255 - b) } }
          (.ok (.currents (255 - r) (255 - g) (255 - b)))

/-- 44_led_gpio.md R236: GPIO_GET answers the whole byte at offset 5; byte 4 is not examined. -/
def Obligations.GpioGetReturnsByteFive : Prop :=
  ∀ (s : State) (pin : Nat), Ready s →
    let p := queryPacket s .gpioGet [BitVec.ofNat 8 pin]
    QueryFailures (.gpioGet pin) s p 6 ∧
    ∀ (h0 h1 h2 h3 x v : Byte) (rest : List Byte), Answers s p (h0 :: h1 :: h2 :: h3 :: x :: v :: rest) →
      exec (.gpioGet pin) s = ends (afterQuery s p) (.ok (.byte v))

/-- 43_pattern_config.md R203: VALID_GET answers the busy bit, the five fault bits and the raw byte, and stores nothing. -/
def Obligations.ValidGetSplitsTheDataByte : Prop :=
  ∀ s : State, Ready s →
    let p := queryPacket s .validGet []
    QueryFailures .validGet s p 5 ∧
    ∀ (h0 h1 h2 h3 v : Byte) (rest : List Byte), Answers s p (h0 :: h1 :: h2 :: h3 :: v :: rest) →
      exec .validGet s = ends (afterQuery s p) (.ok (.validation (v.getLsbD 7) (v.extractLsb' 0 5) v))

/-! Class F operations. -/

/-- 41_status_power_buffer.md R153, 70_reset_and_hazards.md R322: SWRESET sends its packet and changes no register. -/
def Obligations.SwresetChangesNoRegister : Prop :=
  ∀ s : State, Ready s → FireEffect .swreset s (firePacket s .swreset [s.params.swresetByte])

/-- 41_status_power_buffer.md R154 to R157 and 42_source_image_display.md R176: the flag writes send the byte 0 or 1. -/
def Obligations.FlagWritesSendTheFlag : Prop :=
  ∀ (s : State) (f : Bool), Ready s →
    FireEffect (.standbySet f) s (firePacket s .standbySet [flag f]) ∧
    FireEffect (.bufswap f) s (firePacket s .bufswap [flag f]) ∧
    FireEffect (.buffreezeSet f) s (firePacket s .buffreezeSet [flag f]) ∧
    FireEffect (.bufwrdisSet f) s (firePacket s .bufwrdisSet [flag f]) ∧
    FireEffect (.dispmodeSet f) s (firePacket s .dispmodeSet [flag f])

/-- 42_source_image_display.md R171, R172: INSRC_SET and IMGLOAD narrow their operand and never reject it. -/
def Obligations.SourceAndImageWritesNarrow : Prop :=
  ∀ (s : State) (v : Nat), Ready s →
    FireEffect (.insrcSet v) s (firePacket s .insrcSet [BitVec.ofNat 8 (v % 4)]) ∧
    FireEffect (.imgload v) s (firePacket s .imgload [BitVec.ofNat 8 v])

/-- 43_pattern_config.md R193: PATSEQ_CTL sends the code of its action. -/
def Obligations.PatseqCtlSendsTheCode : Prop :=
  ∀ s : State, Ready s →
    FireEffect (.patseqCtl .start) s (firePacket s .patseqCtl [s.params.patseqStart]) ∧
    FireEffect (.patseqCtl .pause) s (firePacket s .patseqCtl [s.params.patseqPause]) ∧
    FireEffect (.patseqCtl .stop) s (firePacket s .patseqCtl [s.params.patseqStop])

/-- 44_led_gpio.md R233, R234: LEDCUR_SET rejects a current above 255 and, in strict mode, a total above 42000; otherwise
it sends `255 - v` of each. -/
def Obligations.LedcurSetIsGuarded : Prop :=
  ∀ (s : State) (r g b : Nat) (strict : Bool), Ready s →
    ((r > 255 ∨ g > 255 ∨ b > 255 ∨ (strict = true ∧ 69 * r + 71 * g + 63 * b + 9611 > 42000)) →
      exec (.ledcurSet r g b strict) s = ends s (.error (.configurationError .ledCurrent))) ∧
    (r ≤ 255 → g ≤ 255 → b ≤ 255 → (strict = true → 69 * r + 71 * g + 63 * b + 9611 ≤ 42000) →
      FireEffect (.ledcurSet r g b strict) s
        (firePacket s .ledcurSet [255 - BitVec.ofNat 8 r, 255 - BitVec.ofNat 8 g, 255 - BitVec.ofNat 8 b]))

/-- 44_led_gpio.md R235: GPIO_CFG packs state, buffer type, direction and disable into bits 3, 4, 5 and 7. -/
def Obligations.GpioCfgPacksItsFlags : Prop :=
  ∀ (s : State) (pin : Nat) (state buftype dir dis : Bool), Ready s →
    FireEffect (.gpioCfg pin state buftype dir dis) s
      (firePacket s .gpioCfg [BitVec.ofNat 8 pin,
        (if state then 0x08 else 0) + (if buftype then 0x10 else 0) + (if dir then 0x20 else 0) + (if dis then 0x80 else 0)])

/-- 43_pattern_config.md R202: VALID_START sends its payload. -/
def Obligations.ValidStartSendsItsPayload : Prop :=
  ∀ s : State, Ready s → FireEffect .validStart s (firePacket s .validStart s.params.validStartPayload)

/-! Class A operations. -/

/-- 43_pattern_config.md R190: TRIGMODE_SET. -/
def Obligations.TrigmodeSetChecksAndSends : Prop :=
  ∀ (s : State) (mode : Nat), Ready s →
    (mode > 4 → exec (.trigmodeSet mode) s = ends s (.error (.configurationError .triggerMode))) ∧
    (mode ≤ 4 → AckEffect (.trigmodeSet mode) s (ackPacket s .trigmodeSet [BitVec.ofNat 8 mode]))

/-- 43_pattern_config.md R191: TRIGOUT1_SET. -/
def Obligations.Trigout1SetSendsPolarityAndDelays : Prop :=
  ∀ (s : State) (pol : Bool) (d0 d1 : Nat), Ready s →
    AckEffect (.trigout1Set pol d0 d1) s
      (ackPacket s .trigout1Set [flag pol <<< s.params.trigout1PolBit.val, BitVec.ofNat 8 d0, BitVec.ofNat 8 d1])

/-- 43_pattern_config.md R192: PATSRC_SET. -/
def Obligations.PatsrcSetChecksAndSends : Prop :=
  ∀ (s : State) (src : Nat), Ready s →
    (src ≠ 0 → src ≠ 3 → exec (.patsrcSet src) s = ends s (.error (.configurationError .patternInputSource))) ∧
    (src = 0 ∨ src = 3 → AckEffect (.patsrcSet src) s (ackPacket s .patsrcSet [BitVec.ofNat 8 src]))

/-- 43_pattern_config.md R194: EXPOSURE_SET sends the exposure and the frame period, each narrowed to 32 bits after the
addition. -/
def Obligations.ExposureSetSendsExposureAndPeriod : Prop :=
  ∀ (s : State) (exp : Nat) (longer : Bool), Ready s →
    AckEffect (.exposureSet exp longer) s
      (ackPacket s .exposureSet (le32Bytes exp ++ le32Bytes (if longer then exp + 230 else exp)))

/-- 43_pattern_config.md R195: LUTCTL_SET sends each count less 1 modulo 256. -/
def Obligations.LutctlSetSendsCountsLessOne : Prop :=
  ∀ (s : State) (entries : Nat) (rep : Bool) (patternCount flashImages : Nat), Ready s →
    AckEffect (.lutctlSet entries rep patternCount flashImages) s
      (ackPacket s .lutctlSet [BitVec.ofNat 8 entries - 1, flag rep, BitVec.ofNat 8 patternCount - 1, BitVec.ofNat 8 flashImages - 1])

/-- 43_pattern_config.md R196, R199: LUTOFS_SET and MBOX_CLOSE. -/
def Obligations.OffsetAndCloseSendTheirByte : Prop :=
  ∀ (s : State) (ofs : Nat), Ready s →
    AckEffect (.lutofsSet ofs) s (ackPacket s .lutofsSet [BitVec.ofNat 8 ofs]) ∧
    AckEffect .mboxClose s (ackPacket s .mboxClose [s.params.mboxCloseCode])

/-- 43_pattern_config.md R198: MBOX_OPEN. -/
def Obligations.MboxOpenChecksAndSends : Prop :=
  ∀ (s : State) (fn : Nat), Ready s →
    (fn ≠ 1 → fn ≠ 2 → fn ≠ 3 → exec (.mboxOpen fn) s = ends s (.error (.configurationError .mailboxFunction))) ∧
    (fn = 1 ∨ fn = 2 ∨ fn = 3 → AckEffect (.mboxOpen fn) s (ackPacket s .mboxOpen [BitVec.ofNat 8 fn]))

/-- 43_pattern_config.md R200, R201: IDXLIST_WR and PATLUT_WR send their bytes in one packet, whatever their number. -/
def Obligations.MailboxWritesSendAllBytes : Prop :=
  ∀ (s : State) (bytes : List Nat), Ready s →
    AckEffect (.idxlistWr bytes) s (ackPacket s .idxlistWr (bytes.map (BitVec.ofNat 8))) ∧
    AckEffect (.patlutWr bytes) s (ackPacket s .patlutWr (bytes.map (BitVec.ofNat 8)))

/-! Procedures. -/

/-- 45_procedures.md R250, R251: CONNECT opens the transport; a failed open is followed by one close. -/
def Obligations.ConnectOpensOrReleases : Prop :=
  ∀ s : State, s.ustep = none →
    let opened : State :=
      { s with env := { s.env with opens := s.env.opens.tail }, draws := s.draws + 1,
               history := s.history ++ [.opened s.params.vendorId s.params.productId (openAnswer s)] }
    (s.connected = true → exec .connect s = .refused .alreadyConnected) ∧
    (s.connected = false → openAnswer s = .handle → exec .connect s = ends { opened with connected := true } (.ok .none)) ∧
    (s.connected = false → openAnswer s = .failure →
      exec .connect s = ends { opened with history := opened.history ++ [.closed] } (.error (.transportError .openFailed)))

/-- 45_procedures.md R252: DISCONNECT closes a connected transport and does nothing otherwise; it is always Ok. -/
def Obligations.DisconnectIsAlwaysOk : Prop :=
  ∀ s : State, s.ustep = none →
    (s.connected = true →
      exec .disconnect s = ends { s with connected := false, history := s.history ++ [.closed] } (.ok .none)) ∧
    (s.connected = false → exec .disconnect s = ends s (.ok .none))

/-- 45_procedures.md R253: the pre-flight checks of UPLOAD, in their order, before any packet. -/
def Obligations.UploadPreflightRejectsWithoutAccess : Prop :=
  ∀ (s : State) (raw idx : List Nat) (exp : Nat) (longer : Bool) (mode : Nat) (rep : Bool), Ready s →
    let i : Instr := .upload raw idx exp longer mode rep
    (raw.length = 0 ∨ raw.length % 3 ≠ 0 → exec i s = ends s (.error (.configurationError .sequenceShape))) ∧
    (raw.length ≠ 0 → raw.length % 3 = 0 → (idx.length < 1 ∨ raw.length / 3 < idx.length) →
      exec i s = ends s (.error (.configurationError .flashIndexCount))) ∧
    (raw.length ≠ 0 → raw.length % 3 = 0 → 1 ≤ idx.length → idx.length ≤ raw.length / 3 → mode > 4 →
      exec i s = ends s (.error (.configurationError .triggerMode)))

/-- 45_procedures.md R254, R256: an UPLOAD whose twelve packets are all accepted, and with `ACK_REPLY = 1` all answered,
ends Ok with exactly those twelve packets sent in order, each read directly after its write, and `SEQ` advanced by 12. -/
def Obligations.UploadSendsItsTwelvePackets : Prop :=
  ∀ (s : State) (raw idx : List Nat) (exp : Nat) (longer : Bool) (mode : Nat) (rep : Bool)
    (rs : List (List Byte)) (ws' : List WriteAnswer) (rs' : List ReadAnswer),
    Ready s → s.params.Wf → PreflightPasses raw idx mode →
    let packets := uploadPackets s raw idx exp longer mode rep
    s.env.writes = packets.map (fun p => .count p.length) ++ ws' →
    (s.params.ackReply = false →
      let new : List TransportEvent := packets.map fun p => .wrote p (.count p.length)
      exec (.upload raw idx exp longer mode rep) s =
        ends { s with seq := s.seq + 12, env := { s.env with writes := ws' }, draws := s.draws + 12,
                      history := s.history ++ new, trace := s.trace ++ traced s new, tx := [], rx := [] } (.ok .none)) ∧
    (s.params.ackReply = true → rs.length = 12 → (∀ r ∈ rs, r.length ≤ s.params.rxMaxLen) →
      s.env.reads = rs.map .bytes ++ rs' →
      let new := exchanges s.params (packets.zip rs)
      exec (.upload raw idx exp longer mode rep) s =
        ends { s with seq := s.seq + 12, env := { s.env with writes := ws', reads := rs' }, draws := s.draws + 24,
                      history := s.history ++ new, trace := s.trace ++ traced s new, tx := [], rx := [] } (.ok .none))

/-- 45_procedures.md R254, R255: whatever the transport answers, an UPLOAD that passes its pre-flight check sends its twelve
packets in order and stops at the first that is not accepted or not answered. Said twice: the whole outcome is that of
`sendInOrder`, and what the history gains is the accepted packets `done`, each with its response, and then `last` with
the answer that ended the procedure. `SEQ` has advanced once for each of them, nothing is undone and no other register
changes. -/
def Obligations.UploadStopsAtTheFirstFailure : Prop :=
  ∀ (s : State) (raw idx : List Nat) (exp : Nat) (longer : Bool) (mode : Nat) (rep : Bool),
    Ready s → s.params.Wf → PreflightPasses raw idx mode →
    let packets := uploadPackets s raw idx exp longer mode rep
    exec (.upload raw idx exp longer mode rep) s = sendInOrder packets s ∧
    ∃ (t : State) (done rest : List (List Byte)) (last : List Byte) (rs : List (List Byte)) (final : List TransportEvent),
      exec (.upload raw idx exp longer mode rep) s = .next t ∧ packets = done ++ last :: rest ∧ rs.length = done.length ∧
      t.history = s.history ++ acknowledgements s.params (done.zip rs) ++ final ∧
      t.seq = s.seq + BitVec.ofNat 8 (done.length + 1) ∧ t.snap = s.snap ∧ t.connected = s.connected ∧ t.cfg = s.cfg ∧
      t.params = s.params ∧ t.requests = s.requests ∧ t.env.cancels = s.env.cancels ∧ AtRest t ∧
      ((t.outcome = some (.ok .none) ∧ rest = [] ∧ ∃ r, final = acknowledgements s.params [(last, r)]) ∨
       (t.outcome = some (.error (.transportError .write)) ∧ ∃ a, a ≠ .count last.length ∧ final = [.wrote last a]) ∨
       (t.outcome = some (.error (.transportError .read)) ∧ s.params.ackReply = true ∧
        final = [.wrote last (.count last.length), .read s.params.rxMaxLen s.params.rxTimeoutMs .failure]))

/-- 45_procedures.md R257: VALIDATE answers the fault bits of the first data byte whose busy bit is clear, after one
write for the start and one exchange for each attempt. -/
def Obligations.ValidateReturnsTheFirstIdleFaults : Prop :=
  ∀ (s : State) (maxAttempts : Nat) (busy : List (List Byte)) (last : List Byte)
    (ws' : List WriteAnswer) (rs' : List ReadAnswer) (cs' : List Bool), Ready s →
    (∀ r ∈ busy ++ [last], 5 ≤ r.length ∧ r.length ≤ s.params.rxMaxLen) →
    (∀ r ∈ busy, (byteAt r 4).getLsbD 7 = true) → (byteAt last 4).getLsbD 7 = false → busy.length < maxAttempts →
    let start := firePacket s .validStart s.params.validStartPayload
    let k := busy.length + 1
    s.env.writes = .count start.length :: List.replicate k (.count 7) ++ ws' →
    s.env.reads = (busy ++ [last]).map .bytes ++ rs' → QuietCancel s k cs' →
    let new : List TransportEvent := .wrote start (.count start.length) ::
      exchanges s.params ((busy ++ [last]).map fun r => (plainQuery s.params .validGet, r))
    exec (.validate maxAttempts) s =
      ends { s with env := { s.env with writes := ws', reads := rs', cancels := cs' },
                    draws := s.draws + 1 + 2 * k + samples s k,
                    history := s.history ++ new, trace := s.trace ++ traced s new, tx := [], rx := [] }
        (.ok (.faults ((byteAt last 4).extractLsb' 0 5)))

/-- 45_procedures.md R257, R258: VALIDATE is bounded: when every one of `maxAttempts` data bytes has the busy bit set it
ends with ExhaustedRetry, and with `maxAttempts = 0` after one write and no read. -/
def Obligations.ValidateIsBounded : Prop :=
  ∀ (s : State) (busy : List (List Byte)) (ws' : List WriteAnswer) (rs' : List ReadAnswer) (cs' : List Bool), Ready s →
    (∀ r ∈ busy, 5 ≤ r.length ∧ r.length ≤ s.params.rxMaxLen) → (∀ r ∈ busy, (byteAt r 4).getLsbD 7 = true) →
    let start := firePacket s .validStart s.params.validStartPayload
    let k := busy.length
    s.env.writes = .count start.length :: List.replicate k (.count 7) ++ ws' →
    s.env.reads = busy.map .bytes ++ rs' → QuietCancel s k cs' →
    let new : List TransportEvent := .wrote start (.count start.length) ::
      exchanges s.params (busy.map fun r => (plainQuery s.params .validGet, r))
    exec (.validate k) s =
      ends { s with env := { s.env with writes := ws', reads := rs', cancels := cs' },
                    draws := s.draws + 1 + 2 * k + samples s k,
                    history := s.history ++ new, trace := s.trace ++ traced s new, tx := [], rx := [] }
        (.error (.exhaustedRetry .validation))

/-- 45_procedures.md R261, R262: POLLSTAT answers at the first attempt whose hardware and system bytes are both nominal,
with the attempt's number and its three bytes, after three exchanges for each attempt; the bound is 10 when none is given. -/
def Obligations.PollstatStopsAtTheFirstNominalAttempt : Prop :=
  ∀ (s : State) (retries : Option Nat) (bad : List (List Byte × List Byte × List Byte))
    (good : List Byte × List Byte × List Byte) (ws' : List WriteAnswer) (rs' : List ReadAnswer) (cs' : List Bool), Ready s →
    (∀ a ∈ bad ++ [good], WholeAttempt s.params a) → (∀ a ∈ bad, ¬ Nominal s.params a) → Nominal s.params good →
    bad.length < retries.getD 10 →
    let k := bad.length + 1
    s.env.writes = List.replicate (3 * k) (.count 7) ++ ws' → s.env.reads = responsesOf (bad ++ [good]) ++ rs' →
    QuietCancel s k cs' →
    let new := exchanges s.params ((bad ++ [good]).flatMap (statusExchanges s.params))
    exec (.pollstat retries) s =
      ends { s with snap := snapAfter s.snap good,
                    env := { s.env with writes := ws', reads := rs', cancels := cs' },
                    draws := s.draws + 6 * k + samples s k,
                    history := s.history ++ new, trace := s.trace ++ traced s new, tx := [], rx := [] }
        (.ok (.status k (byteAt good.1 4) (byteAt good.2.1 4) (byteAt good.2.2 4)))

/-- 45_procedures.md R261, R263: POLLSTAT ends with ExhaustedRetry when no attempt was nominal, with the last-read bytes
left in the snapshot. -/
def Obligations.PollstatIsBounded : Prop :=
  ∀ (s : State) (retries : Option Nat) (bad : List (List Byte × List Byte × List Byte))
    (ws' : List WriteAnswer) (rs' : List ReadAnswer) (cs' : List Bool), Ready s → 0 < retries.getD 10 →
    (∀ a ∈ bad, WholeAttempt s.params a) → (∀ a ∈ bad, ¬ Nominal s.params a) →
    let k := bad.length
    k = retries.getD 10 →
    s.env.writes = List.replicate (3 * k) (.count 7) ++ ws' → s.env.reads = responsesOf bad ++ rs' → QuietCancel s k cs' →
    let new := exchanges s.params (bad.flatMap (statusExchanges s.params))
    exec (.pollstat retries) s =
      ends { s with snap := bad.foldl snapAfter s.snap,
                    env := { s.env with writes := ws', reads := rs', cancels := cs' },
                    draws := s.draws + 6 * k + samples s k,
                    history := s.history ++ new, trace := s.trace ++ traced s new, tx := [], rx := [] }
        (.error (.exhaustedRetry .status))

/-- 45_procedures.md R257, R261, R264 and 60_exceptions.md R297: a polling procedure ends at once, at any attempt, when the
cancel input is 1 at its top, with Cancelled and the number of the attempt that was not started, or when a constituent
operation fails, with that operation's outcome; it has made the accesses before that point and no others, and the
snapshot is as the completed queries left it. With a bound of 0 POLLSTAT makes no access and samples nothing (R263). -/
def Obligations.PollingStopsAtTheFirstFailure : Prop :=
  (∀ s : State, Ready s → exec (.pollstat (some 0)) s = ends s (.error (.exhaustedRetry .status))) ∧
  (∀ (s : State) (maxAttempts : Nat), Ready s →
    let start := firePacket s .validStart s.params.validStartPayload
    (writeAccepted start s = false →
      exec (.validate maxAttempts) s = ends (afterWrite s start) (.error (.transportError .write))) ∧
    ∀ (busy : List (List Byte)) (ws' : List WriteAnswer) (rs' : List ReadAnswer) (cs' : List Bool),
      (∀ r ∈ busy, 5 ≤ r.length ∧ r.length ≤ s.params.rxMaxLen) → (∀ r ∈ busy, (byteAt r 4).getLsbD 7 = true) →
      let k := busy.length
      k < maxAttempts → writeAccepted start s = true → s.env.writes.tail = List.replicate k (.count 7) ++ ws' →
      s.env.reads = busy.map .bytes ++ rs' → QuietCancel s k cs' →
      let new : List TransportEvent := .wrote start (.count start.length) ::
        exchanges s.params (busy.map fun r => (plainQuery s.params .validGet, r))
      let u := afterExchanges s new (1 + 2 * k + samples s k) ws' rs' cs'
      (cancelSample u = true →
        exec (.validate maxAttempts) s = ends (sampleCancel u) (.error (.cancelled .validation (k + 1)))) ∧
      (cancelSample u = false →
        QueryStops (exec (.validate maxAttempts) s) (sampleCancel u) (plainQuery s.params .validGet) 5)) ∧
  ∀ (s : State) (retries : Option Nat) (bad : List (List Byte × List Byte × List Byte))
    (ws' : List WriteAnswer) (rs' : List ReadAnswer) (cs' : List Bool), Ready s →
    (∀ a ∈ bad, WholeAttempt s.params a) → (∀ a ∈ bad, ¬ Nominal s.params a) →
    let k := bad.length
    k < retries.getD 10 → s.env.writes = List.replicate (3 * k) (.count 7) ++ ws' →
    s.env.reads = responsesOf bad ++ rs' → QuietCancel s k cs' →
    let p := plainQuery s.params
    let u : State :=
      { afterExchanges s (exchanges s.params (bad.flatMap (statusExchanges s.params))) (6 * k + samples s k) ws' rs' cs' with
        snap := bad.foldl snapAfter s.snap }
    (cancelSample u = true →
      exec (.pollstat retries) s = ends (sampleCancel u) (.error (.cancelled .status (k + 1)))) ∧
    (cancelSample u = false →
      let u0 := sampleCancel u
      QueryStops (exec (.pollstat retries) s) u0 (p .hwstatGet) 5 ∧
      ∀ hw, Answers u0 (p .hwstatGet) hw → 5 ≤ hw.length →
        let u1 : State := { afterQuery u0 (p .hwstatGet) with snap := { u0.snap with hw := some (byteAt hw 4) } }
        QueryStops (exec (.pollstat retries) s) u1 (p .sysstatGet) 5 ∧
        ∀ sys, Answers u1 (p .sysstatGet) sys → 5 ≤ sys.length →
          let u2 : State := { afterQuery u1 (p .sysstatGet) with snap := { u1.snap with sys := some (byteAt sys 4) } }
          QueryStops (exec (.pollstat retries) s) u2 (p .mainstatGet) 5)

/-! The host port beside the table. -/

/-- 10_state.md R27, 60_exceptions.md R288: a host read of a snapshot field answers what the last query stored and
changes nothing; the read of an absent field is refused. That the value is answered as an outcome on the host port is
the model's choice (log 30). -/
def Obligations.HostReadsOnlyWrittenSnapshotFields : Prop :=
  ∀ (s : State) (f : SnapField) (rest : List HostRequest), s.ustep = none → s.requests = .readSnap f :: rest →
    (∀ v, s.snap.get f = some v → step s = ends { s with requests := rest } (.ok v)) ∧
    (s.snap.get f = none → step s = .refused (.snapshotAbsent f))

/-- 10_state.md R34: an identity string is passed to the host unchanged and stored nowhere. That it is answered whether or
not the block is connected is the model's choice (log 19). -/
def Obligations.IdentityStringsPassThrough : Prop :=
  ∀ (s : State) (which : IdentityString) (text : List Byte) (texts : List (List Byte)) (rest : List HostRequest),
    s.ustep = none → s.requests = .identity which :: rest → s.env.identities = text :: texts →
    step s = ends { s with requests := rest, env := { s.env with identities := texts }, draws := s.draws + 1,
                           history := s.history ++ [.identity which text] } (.ok (.identity text))

/-! Rules about the whole machine. -/

/-- 60_exceptions.md R288: the refusals of a step are exactly the spec's closed list. The model's own readings in it: an
unconnected UPLOAD, VALIDATE or POLLSTAT, and an operation with operands its local check rejects, is refused (log 4);
ENCODE, DECODE and the reads are not (log 5); a request is in progress exactly when `USTEP` is present (log 24). -/
def Obligations.RefusalsAreTheClosedList : Prop :=
  ∀ (s : State) (r : Refusal), step s = .refused r ↔
    ∃ q rest, s.requests = q :: rest ∧
      ((∃ m, q = .unknown m ∧ r = .unknownMnemonic) ∨
       ((∀ m, q ≠ .unknown m) ∧ s.ustep ≠ none ∧ r = .requestInProgress) ∨
       (∃ i, q = .run i ∧ s.ustep = none ∧ needsConnection i = true ∧ s.connected = false ∧ r = .notConnected) ∨
       (q = .run .connect ∧ s.ustep = none ∧ s.connected = true ∧ r = .alreadyConnected) ∨
       (∃ f, q = .readSnap f ∧ s.ustep = none ∧ s.snap.get f = none ∧ r = .snapshotAbsent f))

/-- 60_exceptions.md R281, 40_framer.md R128: ConfigurationError has exactly the causes of the closed list, each under its
condition, and leaves every register, the history and the trace as they were. -/
def Obligations.ConfigurationErrorsAreTheClosedList : Prop :=
  ∀ (s : State) (i : Instr), Ready s → s.params.Wf →
    (∀ c, rejection i = some c → exec i s = ends s (.error (.configurationError c))) ∧
    (rejection i = none → ∀ t c, exec i s = .next t → t.outcome ≠ some (.error (.configurationError c)))

/-- 60_exceptions.md R283, 40_framer.md R122, R128: after a TransportError the block's own state is well defined: the
connection, the configuration and the binding are as before, `SEQ` has advanced once for each class A packet that was
written, the failing one included, and the snapshot is as before, but for what the completed queries of POLLSTAT stored
from the responses they read. -/
def Obligations.TransportErrorLeavesTheStateDefined : Prop :=
  ∀ (s t : State) (i : Instr) (c : TransportCause), exec i s = .next t →
    t.outcome = some (.error (.transportError c)) →
    ∃ new, t.history = s.history ++ new ∧
      t.connected = s.connected ∧ t.cfg = s.cfg ∧ t.params = s.params ∧
      t.seq = (if sendsAcknowledged i then s.seq + BitVec.ofNat 8 (packetsWritten new).length else s.seq) ∧
      (∀ retries, i = .pollstat retries → t.snap = storeStatuses s.snap (responsesRead new)) ∧
      ((∀ retries, i ≠ .pollstat retries) → t.snap = s.snap)

/-- 40_framer.md R134: how many transport accesses an operation makes, by how it ends. -/
def Obligations.AccessCountsByOutcome : Prop :=
  ∀ (s t : State) (i : Instr), IsOperation s.params i → exec i s = .next t →
    ∃ new, t.history = s.history ++ new ∧
      let count := ((packetsWritten new).length, readsMade new, new.length)
      ((∃ v, t.outcome = some (.ok v)) ∧ ∃ op payload, i.wire s.params = some (op, payload) ∧
        count = (if op.cls.reply s.params.ackReply then (1, 1, 2) else (1, 0, 1))) ∨
      ((∃ c, t.outcome = some (.error (.configurationError c))) ∧ count = (0, 0, 0)) ∨
      (t.outcome = some (.error (.transportError .write)) ∧ count = (1, 0, 1)) ∨
      (t.outcome = some (.error (.transportError .read)) ∧ count = (1, 1, 2)) ∨
      (t.outcome = some (.error .responseUnderrun) ∧ count = (1, 1, 2))

/-- 40_framer.md R133: over any run of operations, however the transport answers, the class A packets carry
`S, S+1, …` modulo 256 in order, every other packet carries 0 in byte 2, and `SEQ` ends at `S + N` modulo 256. -/
def Obligations.CounterRunsOverOperations : Prop :=
  ∀ (is : List Instr) (s t : State), Ready s → (∀ i ∈ is, IsOperation s.params i) → serveAll is s = some t →
    ∃ new, t.history = s.history ++ new ∧ (packetsWritten new).map (byteAt · 2) = byte2Run s.seq is ∧
      t.seq = s.seq + BitVec.ofNat 8 (acknowledgedCount is)

/-- 10_state.md R21: no request but a class A operation, UPLOAD and ENCODE with `useSequence` writes `SEQ`. -/
def Obligations.OnlyAcknowledgedPacketsWriteSeq : Prop :=
  ∀ (s t : State) (i : Instr), exec i s = .next t → isAcknowledged i = false →
    (∀ raw idx exp longer mode rep, i ≠ .upload raw idx exp longer mode rep) →
    (∀ cmd2 cmd3 payload readonly reply, i ≠ .encode cmd2 cmd3 payload readonly reply true) → t.seq = s.seq

/-- 10_state.md R20, R24, R25, R26: a snapshot field changes only in a request that runs its query, and no request returns
a field to the unwritten state. -/
def Obligations.SnapshotFieldsHaveOneWriter : Prop :=
  ∀ (s t : State) (i : Instr), exec i s = .next t →
    (∀ f, (s.snap.get f).isSome → (t.snap.get f).isSome) ∧
    (t.snap.hw ≠ s.snap.hw → i = .hwstatGet ∨ ∃ r, i = .pollstat r) ∧
    (t.snap.sys ≠ s.snap.sys → i = .sysstatGet ∨ ∃ r, i = .pollstat r) ∧
    (t.snap.main ≠ s.snap.main → i = .mainstatGet ∨ ∃ r, i = .pollstat r) ∧
    (t.snap.dispmode ≠ s.snap.dispmode → i = .dispmodeGet) ∧ (t.snap.insrc ≠ s.snap.insrc → i = .insrcGet) ∧
    (t.snap.ledR ≠ s.snap.ledR ∨ t.snap.ledG ≠ s.snap.ledG ∨ t.snap.ledB ≠ s.snap.ledB → i = .ledcurGet)

/-- 10_state.md R35: with `CFG.DEBUG = 1` the trace port emits one event for every packet sent and every response read, in
order, and nothing else; with `CFG.DEBUG = 0` it emits nothing. -/
def Obligations.TraceFollowsTheTransport : Prop :=
  ∀ (s t : State) (i : Instr), exec i s = .next t →
    ∃ new, t.history = s.history ++ new ∧ t.trace = s.trace ++ traced s new

/-- 10_state.md R23, R35, 60_exceptions.md R302, 70_reset_and_hazards.md R340: `CFG.DRYRUN`, `CFG.DEBUG`, what the trace
port has emitted and `POLL_DELAY` cannot influence anything but themselves: states that agree on all else step alike. -/
def Obligations.DebugAndDryrunDoNotInterfere : Prop :=
  ∀ s t : State, s.hideTrace = t.hideTrace →
    viewOutcome State.hideTrace (step s) = viewOutcome State.hideTrace (step t)

/-- 10_state.md R23, 20_memory.md R57, R70: no step rewrites the configuration or the parameter binding, and the history
and the trace only grow at their end. -/
def Obligations.StepOnlyAppends : Prop :=
  ∀ s t : State, step s = .next t →
    t.cfg = s.cfg ∧ t.params = s.params ∧ s.history <+: t.history ∧ s.trace <+: t.trace ∧ s.draws ≤ t.draws

/-- 60_exceptions.md R284: a DeviceFault is a predicate on Ok values. HWSTAT_GET and SYSSTAT_GET whose response holds the
byte end Ok whatever it is and write the snapshot, and the byte is a DeviceFault exactly when it is not the nominal one.
VALIDATE whose last access reads an idle byte ends Ok with its five fault bits whatever they are, and they are a
DeviceFault exactly when they are not zero, each set bit naming one fault of 43_pattern_config.md R204. MAINSTAT_GET ends
Ok and never yields one. VALIDATE's Ok values are never anything but fault bits. -/
def Obligations.DeviceFaultIsDataInsideOk : Prop :=
  (∀ s : State, Ready s → ∀ r : List Byte, 5 ≤ r.length →
    (Answers s (queryPacket s .hwstatGet []) r → ∃ t, exec .hwstatGet s = .next t ∧
      t.outcome = some (.ok (.byte (byteAt r 4))) ∧ t.snap.hw = some (byteAt r 4) ∧
      (deviceFault s.params .hwstatGet (.byte (byteAt r 4)) = true ↔ byteAt r 4 ≠ s.params.hwNominal)) ∧
    (Answers s (queryPacket s .sysstatGet []) r → ∃ t, exec .sysstatGet s = .next t ∧
      t.outcome = some (.ok (.byte (byteAt r 4))) ∧ t.snap.sys = some (byteAt r 4) ∧
      (deviceFault s.params .sysstatGet (.byte (byteAt r 4)) = true ↔ byteAt r 4 ≠ s.params.sysNominal)) ∧
    (Answers s (queryPacket s .mainstatGet []) r → ∃ t, exec .mainstatGet s = .next t ∧
      t.outcome = some (.ok (.byte (byteAt r 4))) ∧ t.snap.main = some (byteAt r 4)) ∧
    ∀ v, deviceFault s.params .mainstatGet v = false) ∧
  (∀ (s t : State) (n : Nat), exec (.validate n) s = .next t →
    (∀ v, t.outcome = some (.ok v) → ∃ f, v = .faults f) ∧
    ∀ (before : List TransportEvent) (maxLength timeoutMs : Nat) (r : List Byte),
      t.history = s.history ++ before ++ [.read maxLength timeoutMs (.bytes r)] → 5 ≤ r.length →
      (byteAt r 4).getLsbD 7 = false → t.outcome = some (.ok (.faults ((byteAt r 4).extractLsb' 0 5)))) ∧
  ∀ (p : Params) (n : Nat) (f : BitVec 5),
    (deviceFault p (.validate n) (.faults f) = true ↔ f ≠ 0) ∧
    (.exposureInvalid ∈ namedFaults f ↔ f.getLsbD 0 = true) ∧ (.lutNumbersInvalid ∈ namedFaults f ↔ f.getLsbD 1 = true) ∧
    (.triggerOverlap ∈ namedFaults f ↔ f.getLsbD 2 = true) ∧ (.missingPostVector ∈ namedFaults f ↔ f.getLsbD 3 = true) ∧
    (.deltaUnder230 ∈ namedFaults f ↔ f.getLsbD 4 = true)

/-- The invariant of `Safety` is kept by every step: the block stays at rest between requests, its history stays one the
protocol can produce, with `CONNECTED` what that history says (10_state.md R22), every packet of the one format (R80) and
a read after exactly the accepted writes that ask for a reply (R93). -/
def Obligations.StepKeepsTheInvariant : Prop :=
  ∀ s t : State, Inv s → step s = .next t → Inv t

/-- The invariant holds after reset, and after every construction with a binding that meets 00_scope.md R6. -/
def Obligations.ResetMeetsTheInvariant : Prop :=
  Inv State.reset ∧ ∀ (c : Cfg) (p : Params), p.Wf → Inv (State.construct c p)

end
end

