-- ==== Sys2Proof/Laws/State.lean ====
section
/-! SUPPORT. For each named update of the state, what each field holds after it. -/

namespace Sys2Proof.Machine

/-! `openTransport` -/

@[simp] theorem openTransport_seq (s : State) :
    (openTransport s).seq = s.seq := rfl
@[simp] theorem openTransport_connected (s : State) :
    (openTransport s).connected = s.connected := rfl
@[simp] theorem openTransport_cfg (s : State) :
    (openTransport s).cfg = s.cfg := rfl
@[simp] theorem openTransport_snap (s : State) :
    (openTransport s).snap = s.snap := rfl
@[simp] theorem openTransport_params (s : State) :
    (openTransport s).params = s.params := rfl
@[simp] theorem openTransport_ustep (s : State) :
    (openTransport s).ustep = s.ustep := rfl
@[simp] theorem openTransport_tx (s : State) :
    (openTransport s).tx = s.tx := rfl
@[simp] theorem openTransport_rx (s : State) :
    (openTransport s).rx = s.rx := rfl
@[simp] theorem openTransport_requests (s : State) :
    (openTransport s).requests = s.requests := rfl
@[simp] theorem openTransport_env (s : State) :
    (openTransport s).env = { s.env with opens := s.env.opens.tail } := rfl
@[simp] theorem openTransport_draws (s : State) :
    (openTransport s).draws = s.draws + 1 := rfl
@[simp] theorem openTransport_history (s : State) :
    (openTransport s).history = s.history ++ [.opened s.params.vendorId s.params.productId (openAnswer s)] := rfl
@[simp] theorem openTransport_trace (s : State) :
    (openTransport s).trace = s.trace := rfl
@[simp] theorem openTransport_outcome (s : State) :
    (openTransport s).outcome = s.outcome := rfl

/-! `closeTransport` -/

@[simp] theorem closeTransport_seq (s : State) :
    (closeTransport s).seq = s.seq := rfl
@[simp] theorem closeTransport_connected (s : State) :
    (closeTransport s).connected = s.connected := rfl
@[simp] theorem closeTransport_cfg (s : State) :
    (closeTransport s).cfg = s.cfg := rfl
@[simp] theorem closeTransport_snap (s : State) :
    (closeTransport s).snap = s.snap := rfl
@[simp] theorem closeTransport_params (s : State) :
    (closeTransport s).params = s.params := rfl
@[simp] theorem closeTransport_ustep (s : State) :
    (closeTransport s).ustep = s.ustep := rfl
@[simp] theorem closeTransport_tx (s : State) :
    (closeTransport s).tx = s.tx := rfl
@[simp] theorem closeTransport_rx (s : State) :
    (closeTransport s).rx = s.rx := rfl
@[simp] theorem closeTransport_requests (s : State) :
    (closeTransport s).requests = s.requests := rfl
@[simp] theorem closeTransport_env (s : State) :
    (closeTransport s).env = s.env := rfl
@[simp] theorem closeTransport_draws (s : State) :
    (closeTransport s).draws = s.draws := rfl
@[simp] theorem closeTransport_history (s : State) :
    (closeTransport s).history = s.history ++ [.closed] := rfl
@[simp] theorem closeTransport_trace (s : State) :
    (closeTransport s).trace = s.trace := rfl
@[simp] theorem closeTransport_outcome (s : State) :
    (closeTransport s).outcome = s.outcome := rfl

/-! `writeTransport` -/

@[simp] theorem writeTransport_seq (s : State) :
    (writeTransport s).seq = s.seq := rfl
@[simp] theorem writeTransport_connected (s : State) :
    (writeTransport s).connected = s.connected := rfl
@[simp] theorem writeTransport_cfg (s : State) :
    (writeTransport s).cfg = s.cfg := rfl
@[simp] theorem writeTransport_snap (s : State) :
    (writeTransport s).snap = s.snap := rfl
@[simp] theorem writeTransport_params (s : State) :
    (writeTransport s).params = s.params := rfl
@[simp] theorem writeTransport_ustep (s : State) :
    (writeTransport s).ustep = s.ustep := rfl
@[simp] theorem writeTransport_tx (s : State) :
    (writeTransport s).tx = s.tx := rfl
@[simp] theorem writeTransport_rx (s : State) :
    (writeTransport s).rx = s.rx := rfl
@[simp] theorem writeTransport_requests (s : State) :
    (writeTransport s).requests = s.requests := rfl
@[simp] theorem writeTransport_env (s : State) :
    (writeTransport s).env = { s.env with writes := s.env.writes.tail } := rfl
@[simp] theorem writeTransport_draws (s : State) :
    (writeTransport s).draws = s.draws + 1 := rfl
@[simp] theorem writeTransport_history (s : State) :
    (writeTransport s).history = s.history ++ [.wrote s.tx (writeAnswer s.tx s)] := rfl
@[simp] theorem writeTransport_trace (s : State) :
    (writeTransport s).trace = s.trace := rfl
@[simp] theorem writeTransport_outcome (s : State) :
    (writeTransport s).outcome = s.outcome := rfl

/-! `readTransport` -/

@[simp] theorem readTransport_seq (s : State) :
    (readTransport s).seq = s.seq := rfl
@[simp] theorem readTransport_connected (s : State) :
    (readTransport s).connected = s.connected := rfl
@[simp] theorem readTransport_cfg (s : State) :
    (readTransport s).cfg = s.cfg := rfl
@[simp] theorem readTransport_snap (s : State) :
    (readTransport s).snap = s.snap := rfl
@[simp] theorem readTransport_params (s : State) :
    (readTransport s).params = s.params := rfl
@[simp] theorem readTransport_ustep (s : State) :
    (readTransport s).ustep = s.ustep := rfl
@[simp] theorem readTransport_tx (s : State) :
    (readTransport s).tx = s.tx := rfl
@[simp] theorem readTransport_rx (s : State) :
    (readTransport s).rx = s.rx := rfl
@[simp] theorem readTransport_requests (s : State) :
    (readTransport s).requests = s.requests := rfl
@[simp] theorem readTransport_env (s : State) :
    (readTransport s).env = { s.env with reads := s.env.reads.tail } := rfl
@[simp] theorem readTransport_draws (s : State) :
    (readTransport s).draws = s.draws + 1 := rfl
@[simp] theorem readTransport_history (s : State) :
    (readTransport s).history = s.history ++ [.read s.params.rxMaxLen s.params.rxTimeoutMs (readAnswer s)] := rfl
@[simp] theorem readTransport_trace (s : State) :
    (readTransport s).trace = s.trace := rfl
@[simp] theorem readTransport_outcome (s : State) :
    (readTransport s).outcome = s.outcome := rfl

/-! `queryIdentity` -/

@[simp] theorem queryIdentity_seq (w : IdentityString) (s : State) :
    (queryIdentity w s).seq = s.seq := rfl
@[simp] theorem queryIdentity_connected (w : IdentityString) (s : State) :
    (queryIdentity w s).connected = s.connected := rfl
@[simp] theorem queryIdentity_cfg (w : IdentityString) (s : State) :
    (queryIdentity w s).cfg = s.cfg := rfl
@[simp] theorem queryIdentity_snap (w : IdentityString) (s : State) :
    (queryIdentity w s).snap = s.snap := rfl
@[simp] theorem queryIdentity_params (w : IdentityString) (s : State) :
    (queryIdentity w s).params = s.params := rfl
@[simp] theorem queryIdentity_ustep (w : IdentityString) (s : State) :
    (queryIdentity w s).ustep = s.ustep := rfl
@[simp] theorem queryIdentity_tx (w : IdentityString) (s : State) :
    (queryIdentity w s).tx = s.tx := rfl
@[simp] theorem queryIdentity_rx (w : IdentityString) (s : State) :
    (queryIdentity w s).rx = s.rx := rfl
@[simp] theorem queryIdentity_requests (w : IdentityString) (s : State) :
    (queryIdentity w s).requests = s.requests := rfl
@[simp] theorem queryIdentity_env (w : IdentityString) (s : State) :
    (queryIdentity w s).env = { s.env with identities := s.env.identities.tail } := rfl
@[simp] theorem queryIdentity_draws (w : IdentityString) (s : State) :
    (queryIdentity w s).draws = s.draws + 1 := rfl
@[simp] theorem queryIdentity_history (w : IdentityString) (s : State) :
    (queryIdentity w s).history = s.history ++ [.identity w (identityAnswer w s)] := rfl
@[simp] theorem queryIdentity_trace (w : IdentityString) (s : State) :
    (queryIdentity w s).trace = s.trace := rfl
@[simp] theorem queryIdentity_outcome (w : IdentityString) (s : State) :
    (queryIdentity w s).outcome = s.outcome := rfl

/-! `sampleCancel` -/

@[simp] theorem sampleCancel_seq (s : State) :
    (sampleCancel s).seq = s.seq := by unfold sampleCancel; split <;> rfl
@[simp] theorem sampleCancel_connected (s : State) :
    (sampleCancel s).connected = s.connected := by unfold sampleCancel; split <;> rfl
@[simp] theorem sampleCancel_cfg (s : State) :
    (sampleCancel s).cfg = s.cfg := by unfold sampleCancel; split <;> rfl
@[simp] theorem sampleCancel_snap (s : State) :
    (sampleCancel s).snap = s.snap := by unfold sampleCancel; split <;> rfl
@[simp] theorem sampleCancel_params (s : State) :
    (sampleCancel s).params = s.params := by unfold sampleCancel; split <;> rfl
@[simp] theorem sampleCancel_ustep (s : State) :
    (sampleCancel s).ustep = s.ustep := by unfold sampleCancel; split <;> rfl
@[simp] theorem sampleCancel_tx (s : State) :
    (sampleCancel s).tx = s.tx := by unfold sampleCancel; split <;> rfl
@[simp] theorem sampleCancel_rx (s : State) :
    (sampleCancel s).rx = s.rx := by unfold sampleCancel; split <;> rfl
@[simp] theorem sampleCancel_requests (s : State) :
    (sampleCancel s).requests = s.requests := by unfold sampleCancel; split <;> rfl
@[simp] theorem sampleCancel_env (s : State) :
    (sampleCancel s).env = if s.params.hasCancel then { s.env with cancels := s.env.cancels.tail } else s.env := by unfold sampleCancel; split <;> rfl
@[simp] theorem sampleCancel_draws (s : State) :
    (sampleCancel s).draws = if s.params.hasCancel then s.draws + 1 else s.draws := by unfold sampleCancel; split <;> rfl
@[simp] theorem sampleCancel_history (s : State) :
    (sampleCancel s).history = s.history := by unfold sampleCancel; split <;> rfl
@[simp] theorem sampleCancel_trace (s : State) :
    (sampleCancel s).trace = s.trace := by unfold sampleCancel; split <;> rfl
@[simp] theorem sampleCancel_outcome (s : State) :
    (sampleCancel s).outcome = s.outcome := by unfold sampleCancel; split <;> rfl

/-! `emit` -/

@[simp] theorem emit_seq (e : TraceEvent) (s : State) :
    (emit e s).seq = s.seq := rfl
@[simp] theorem emit_connected (e : TraceEvent) (s : State) :
    (emit e s).connected = s.connected := rfl
@[simp] theorem emit_cfg (e : TraceEvent) (s : State) :
    (emit e s).cfg = s.cfg := rfl
@[simp] theorem emit_snap (e : TraceEvent) (s : State) :
    (emit e s).snap = s.snap := rfl
@[simp] theorem emit_params (e : TraceEvent) (s : State) :
    (emit e s).params = s.params := rfl
@[simp] theorem emit_ustep (e : TraceEvent) (s : State) :
    (emit e s).ustep = s.ustep := rfl
@[simp] theorem emit_tx (e : TraceEvent) (s : State) :
    (emit e s).tx = s.tx := rfl
@[simp] theorem emit_rx (e : TraceEvent) (s : State) :
    (emit e s).rx = s.rx := rfl
@[simp] theorem emit_requests (e : TraceEvent) (s : State) :
    (emit e s).requests = s.requests := rfl
@[simp] theorem emit_env (e : TraceEvent) (s : State) :
    (emit e s).env = s.env := rfl
@[simp] theorem emit_draws (e : TraceEvent) (s : State) :
    (emit e s).draws = s.draws := rfl
@[simp] theorem emit_history (e : TraceEvent) (s : State) :
    (emit e s).history = s.history := rfl
@[simp] theorem emit_trace (e : TraceEvent) (s : State) :
    (emit e s).trace = if s.cfg.debug then s.trace ++ [e] else s.trace := rfl
@[simp] theorem emit_outcome (e : TraceEvent) (s : State) :
    (emit e s).outcome = s.outcome := rfl

/-! `framerEncode` -/

@[simp] theorem framerEncode_seq (c2 c3 : Nat) (pl : List Nat) (ro rp us : Bool) (s : State) :
    (framerEncode c2 c3 pl ro rp us s).seq = if us then s.seq + 1 else s.seq := rfl
@[simp] theorem framerEncode_connected (c2 c3 : Nat) (pl : List Nat) (ro rp us : Bool) (s : State) :
    (framerEncode c2 c3 pl ro rp us s).connected = s.connected := rfl
@[simp] theorem framerEncode_cfg (c2 c3 : Nat) (pl : List Nat) (ro rp us : Bool) (s : State) :
    (framerEncode c2 c3 pl ro rp us s).cfg = s.cfg := rfl
@[simp] theorem framerEncode_snap (c2 c3 : Nat) (pl : List Nat) (ro rp us : Bool) (s : State) :
    (framerEncode c2 c3 pl ro rp us s).snap = s.snap := rfl
@[simp] theorem framerEncode_params (c2 c3 : Nat) (pl : List Nat) (ro rp us : Bool) (s : State) :
    (framerEncode c2 c3 pl ro rp us s).params = s.params := rfl
@[simp] theorem framerEncode_ustep (c2 c3 : Nat) (pl : List Nat) (ro rp us : Bool) (s : State) :
    (framerEncode c2 c3 pl ro rp us s).ustep = s.ustep := rfl
@[simp] theorem framerEncode_tx (c2 c3 : Nat) (pl : List Nat) (ro rp us : Bool) (s : State) :
    (framerEncode c2 c3 pl ro rp us s).tx = layout ro rp (nextSeq us s) (trunc8 c3) (trunc8 c2) (pl.map trunc8) := rfl
@[simp] theorem framerEncode_rx (c2 c3 : Nat) (pl : List Nat) (ro rp us : Bool) (s : State) :
    (framerEncode c2 c3 pl ro rp us s).rx = s.rx := rfl
@[simp] theorem framerEncode_requests (c2 c3 : Nat) (pl : List Nat) (ro rp us : Bool) (s : State) :
    (framerEncode c2 c3 pl ro rp us s).requests = s.requests := rfl
@[simp] theorem framerEncode_env (c2 c3 : Nat) (pl : List Nat) (ro rp us : Bool) (s : State) :
    (framerEncode c2 c3 pl ro rp us s).env = s.env := rfl
@[simp] theorem framerEncode_draws (c2 c3 : Nat) (pl : List Nat) (ro rp us : Bool) (s : State) :
    (framerEncode c2 c3 pl ro rp us s).draws = s.draws := rfl
@[simp] theorem framerEncode_history (c2 c3 : Nat) (pl : List Nat) (ro rp us : Bool) (s : State) :
    (framerEncode c2 c3 pl ro rp us s).history = s.history := rfl
@[simp] theorem framerEncode_trace (c2 c3 : Nat) (pl : List Nat) (ro rp us : Bool) (s : State) :
    (framerEncode c2 c3 pl ro rp us s).trace = s.trace := rfl
@[simp] theorem framerEncode_outcome (c2 c3 : Nat) (pl : List Nat) (ro rp us : Bool) (s : State) :
    (framerEncode c2 c3 pl ro rp us s).outcome = s.outcome := rfl

/-! `discardBuffers` -/

@[simp] theorem discardBuffers_seq (s : State) :
    (discardBuffers s).seq = s.seq := rfl
@[simp] theorem discardBuffers_connected (s : State) :
    (discardBuffers s).connected = s.connected := rfl
@[simp] theorem discardBuffers_cfg (s : State) :
    (discardBuffers s).cfg = s.cfg := rfl
@[simp] theorem discardBuffers_snap (s : State) :
    (discardBuffers s).snap = s.snap := rfl
@[simp] theorem discardBuffers_params (s : State) :
    (discardBuffers s).params = s.params := rfl
@[simp] theorem discardBuffers_ustep (s : State) :
    (discardBuffers s).ustep = s.ustep := rfl
@[simp] theorem discardBuffers_tx (s : State) :
    (discardBuffers s).tx = [] := rfl
@[simp] theorem discardBuffers_rx (s : State) :
    (discardBuffers s).rx = [] := rfl
@[simp] theorem discardBuffers_requests (s : State) :
    (discardBuffers s).requests = s.requests := rfl
@[simp] theorem discardBuffers_env (s : State) :
    (discardBuffers s).env = s.env := rfl
@[simp] theorem discardBuffers_draws (s : State) :
    (discardBuffers s).draws = s.draws := rfl
@[simp] theorem discardBuffers_history (s : State) :
    (discardBuffers s).history = s.history := rfl
@[simp] theorem discardBuffers_trace (s : State) :
    (discardBuffers s).trace = s.trace := rfl
@[simp] theorem discardBuffers_outcome (s : State) :
    (discardBuffers s).outcome = s.outcome := rfl

/-! `setUstep` -/

@[simp] theorem setUstep_seq (n : Nat) (s : State) :
    (setUstep n s).seq = s.seq := rfl
@[simp] theorem setUstep_connected (n : Nat) (s : State) :
    (setUstep n s).connected = s.connected := rfl
@[simp] theorem setUstep_cfg (n : Nat) (s : State) :
    (setUstep n s).cfg = s.cfg := rfl
@[simp] theorem setUstep_snap (n : Nat) (s : State) :
    (setUstep n s).snap = s.snap := rfl
@[simp] theorem setUstep_params (n : Nat) (s : State) :
    (setUstep n s).params = s.params := rfl
@[simp] theorem setUstep_ustep (n : Nat) (s : State) :
    (setUstep n s).ustep = some n := rfl
@[simp] theorem setUstep_tx (n : Nat) (s : State) :
    (setUstep n s).tx = s.tx := rfl
@[simp] theorem setUstep_rx (n : Nat) (s : State) :
    (setUstep n s).rx = s.rx := rfl
@[simp] theorem setUstep_requests (n : Nat) (s : State) :
    (setUstep n s).requests = s.requests := rfl
@[simp] theorem setUstep_env (n : Nat) (s : State) :
    (setUstep n s).env = s.env := rfl
@[simp] theorem setUstep_draws (n : Nat) (s : State) :
    (setUstep n s).draws = s.draws := rfl
@[simp] theorem setUstep_history (n : Nat) (s : State) :
    (setUstep n s).history = s.history := rfl
@[simp] theorem setUstep_trace (n : Nat) (s : State) :
    (setUstep n s).trace = s.trace := rfl
@[simp] theorem setUstep_outcome (n : Nat) (s : State) :
    (setUstep n s).outcome = s.outcome := rfl

/-! `deliver` -/

@[simp] theorem deliver_seq (r : Except Ending Value) (s : State) :
    (deliver (s, r)).seq = s.seq := rfl
@[simp] theorem deliver_connected (r : Except Ending Value) (s : State) :
    (deliver (s, r)).connected = s.connected := rfl
@[simp] theorem deliver_cfg (r : Except Ending Value) (s : State) :
    (deliver (s, r)).cfg = s.cfg := rfl
@[simp] theorem deliver_snap (r : Except Ending Value) (s : State) :
    (deliver (s, r)).snap = s.snap := rfl
@[simp] theorem deliver_params (r : Except Ending Value) (s : State) :
    (deliver (s, r)).params = s.params := rfl
@[simp] theorem deliver_ustep (r : Except Ending Value) (s : State) :
    (deliver (s, r)).ustep = s.ustep := rfl
@[simp] theorem deliver_tx (r : Except Ending Value) (s : State) :
    (deliver (s, r)).tx = s.tx := rfl
@[simp] theorem deliver_rx (r : Except Ending Value) (s : State) :
    (deliver (s, r)).rx = s.rx := rfl
@[simp] theorem deliver_requests (r : Except Ending Value) (s : State) :
    (deliver (s, r)).requests = s.requests := rfl
@[simp] theorem deliver_env (r : Except Ending Value) (s : State) :
    (deliver (s, r)).env = s.env := rfl
@[simp] theorem deliver_draws (r : Except Ending Value) (s : State) :
    (deliver (s, r)).draws = s.draws := rfl
@[simp] theorem deliver_history (r : Except Ending Value) (s : State) :
    (deliver (s, r)).history = s.history := rfl
@[simp] theorem deliver_trace (r : Except Ending Value) (s : State) :
    (deliver (s, r)).trace = s.trace := rfl
@[simp] theorem deliver_outcome (r : Except Ending Value) (s : State) :
    (deliver (s, r)).outcome = some r := rfl

/-! `present` -/

@[simp] theorem present_seq (r : HostRequest) (s : State) :
    (present r s).seq = s.seq := rfl
@[simp] theorem present_connected (r : HostRequest) (s : State) :
    (present r s).connected = s.connected := rfl
@[simp] theorem present_cfg (r : HostRequest) (s : State) :
    (present r s).cfg = s.cfg := rfl
@[simp] theorem present_snap (r : HostRequest) (s : State) :
    (present r s).snap = s.snap := rfl
@[simp] theorem present_params (r : HostRequest) (s : State) :
    (present r s).params = s.params := rfl
@[simp] theorem present_ustep (r : HostRequest) (s : State) :
    (present r s).ustep = s.ustep := rfl
@[simp] theorem present_tx (r : HostRequest) (s : State) :
    (present r s).tx = s.tx := rfl
@[simp] theorem present_rx (r : HostRequest) (s : State) :
    (present r s).rx = s.rx := rfl
@[simp] theorem present_requests (r : HostRequest) (s : State) :
    (present r s).requests = r :: s.requests := rfl
@[simp] theorem present_env (r : HostRequest) (s : State) :
    (present r s).env = s.env := rfl
@[simp] theorem present_draws (r : HostRequest) (s : State) :
    (present r s).draws = s.draws := rfl
@[simp] theorem present_history (r : HostRequest) (s : State) :
    (present r s).history = s.history := rfl
@[simp] theorem present_trace (r : HostRequest) (s : State) :
    (present r s).trace = s.trace := rfl
@[simp] theorem present_outcome (r : HostRequest) (s : State) :
    (present r s).outcome = s.outcome := rfl

/-! `linked` -/

@[simp] theorem linked_seq (s : State) :
    (linked s).seq = s.seq := rfl
@[simp] theorem linked_connected (s : State) :
    (linked s).connected = true := rfl
@[simp] theorem linked_cfg (s : State) :
    (linked s).cfg = s.cfg := rfl
@[simp] theorem linked_snap (s : State) :
    (linked s).snap = s.snap := rfl
@[simp] theorem linked_params (s : State) :
    (linked s).params = s.params := rfl
@[simp] theorem linked_ustep (s : State) :
    (linked s).ustep = none := rfl
@[simp] theorem linked_tx (s : State) :
    (linked s).tx = s.tx := rfl
@[simp] theorem linked_rx (s : State) :
    (linked s).rx = s.rx := rfl
@[simp] theorem linked_requests (s : State) :
    (linked s).requests = s.requests := rfl
@[simp] theorem linked_env (s : State) :
    (linked s).env = s.env := rfl
@[simp] theorem linked_draws (s : State) :
    (linked s).draws = s.draws := rfl
@[simp] theorem linked_history (s : State) :
    (linked s).history = if s.connected then s.history
      else s.history ++ [.opened s.params.vendorId s.params.productId .handle] := rfl
@[simp] theorem linked_trace (s : State) :
    (linked s).trace = s.trace := rfl
@[simp] theorem linked_outcome (s : State) :
    (linked s).outcome = s.outcome := rfl

/-! Construction and reset (10_state.md R39). -/

@[simp] theorem construct_seq (c : Cfg) (p : Params) : (State.construct c p).seq = p.seqInit := rfl
@[simp] theorem construct_connected (c : Cfg) (p : Params) : (State.construct c p).connected = false := rfl
@[simp] theorem construct_cfg (c : Cfg) (p : Params) : (State.construct c p).cfg = c := rfl
@[simp] theorem construct_params (c : Cfg) (p : Params) : (State.construct c p).params = p := rfl
@[simp] theorem construct_ustep (c : Cfg) (p : Params) : (State.construct c p).ustep = none := rfl
@[simp] theorem construct_tx (c : Cfg) (p : Params) : (State.construct c p).tx = [] := rfl
@[simp] theorem construct_rx (c : Cfg) (p : Params) : (State.construct c p).rx = [] := rfl
@[simp] theorem construct_history (c : Cfg) (p : Params) : (State.construct c p).history = [] := rfl

/-- The binding of the machine after reset meets the constraints of 00_scope.md R6. -/
theorem config_params_wf : Config.params.Wf := by
  have pat (a b : Byte) (h : a ≠ b) : Config.patseqPerm a ≠ Config.patseqPerm b :=
    fun e => h (Config.patseqPerm.injective e)
  have box (v : Fin 3) : v.val + 1 ∈ [1, 2, 3] := by fin_cases v <;> decide
  refine ⟨box _, box _, ?_, pat _ _ (by decide), pat _ _ (by decide), pat _ _ (by decide), ?_, ?_⟩
  · intro e
    have h0 : (Config.mboxPerm 0) = Config.mboxPerm 1 := Fin.ext (Nat.succ.inj e)
    exact absurd (Config.mboxPerm.injective h0) (by decide)
  · simp [Config.params]
  · simp [Config.params]

end Sys2Proof.Machine
end

