-- ==== Sys2Proof/Laws/Wire.lean ====
section
/-! SUPPORT. Laws of the wire format: the packet byte by byte, its length, the flags byte, DECODE after the layout, and
the operation table. -/

namespace Sys2Proof

@[simp] theorem flagNat_true : flagNat true = 1 := rfl
@[simp] theorem flagNat_false : flagNat false = 0 := rfl

@[simp] theorem trunc8_toNat (b : Byte) : trunc8 b.toNat = b := by simp [trunc8]

@[simp] theorem map_trunc8_toNat (l : List Byte) : (l.map BitVec.toNat).map trunc8 = l := by
  simp [Function.comp_def]

/-- Narrowing to 8 bits before a byte is built changes nothing. -/
@[simp] theorem trunc8_trunc (v : Nat) : trunc8 (trunc 8 v) = trunc8 v := by
  apply BitVec.eq_of_toNat_eq; simp [trunc8, trunc]

@[simp] theorem map_trunc8_trunc (l : List Nat) : (l.map (trunc 8)).map trunc8 = l.map trunc8 := by
  simp [Function.comp_def]

/-- The two length bytes: low first. -/
theorem map_trunc8_le16 (v : Nat) : (le16 v).map trunc8 = [trunc8 v, trunc8 (v / 256)] := by
  simp only [le16, trunc, List.map_cons, List.map_nil, trunc8]
  congr 1
  · apply BitVec.eq_of_toNat_eq; simp
  · congr 1; apply BitVec.eq_of_toNat_eq; simp; omega

/-- The four bytes of a 32-bit number: low first. -/
theorem map_trunc8_le32 (v : Nat) :
    (le32 v).map trunc8 = [trunc8 v, trunc8 (v / 256), trunc8 (v / 65536), trunc8 (v / 16777216)] := by
  simp only [le32, trunc, List.map_cons, List.map_nil, trunc8]
  refine congrArg₂ _ ?_ (congrArg₂ _ ?_ (congrArg₂ _ ?_ (congrArg₂ _ ?_ rfl)))
  all_goals (apply BitVec.eq_of_toNat_eq; simp <;> omega)

/-- The packet of 30_encoding.md R80 byte by byte. -/
theorem layout_eq (ro rp : Bool) (seq c3 c2 : Byte) (pl : List Byte) :
    layout ro rp seq c3 c2 pl =
      0x00 :: flagsByte ro rp :: seq :: trunc8 (pl.length + 2) :: trunc8 ((pl.length + 2) / 256) :: c3 :: c2 :: pl := by
  simp [layout, map_trunc8_le16]

@[simp] theorem layout_length (ro rp : Bool) (seq c3 c2 : Byte) (pl : List Byte) :
    (layout ro rp seq c3 c2 pl).length = 7 + pl.length := by
  simp [layout_eq]; omega

@[simp] theorem flagsByte_readonly (ro rp : Bool) : (flagsByte ro rp).getLsbD 7 = ro := by cases ro <;> cases rp <;> decide
@[simp] theorem flagsByte_reply (ro rp : Bool) : (flagsByte ro rp).getLsbD 6 = rp := by cases ro <;> cases rp <;> decide

/-- The flags byte takes one of four values, with bits 5..0 zero (30_encoding.md R82). -/
theorem flagsByte_reserved (ro rp : Bool) : flagsByte ro rp &&& 0x3F = 0x00 := by cases ro <;> cases rp <;> decide

/-- The value of the two length bytes (30_encoding.md R85). -/
theorem length_bytes_value (n : Nat) : (trunc8 n).toNat + 256 * (trunc8 (n / 256)).toNat = n % 65536 := by
  simp [trunc8]; omega

/-- DECODE of a packet of up to 65533 payload bytes (40_framer.md R125). -/
theorem decodeFrame_layout (ro rp : Bool) (seq c3 c2 : Byte) (pl : List Byte) (h : pl.length ≤ 65533) :
    decodeFrame (layout ro rp seq c3 c2 pl) = .ok ⟨ro, rp, seq, c3, c2, pl⟩ := by
  have hv := length_bytes_value (pl.length + 2)
  have hm : (pl.length + 2) % 65536 = pl.length + 2 := Nat.mod_eq_of_lt (by omega)
  rw [hm] at hv
  have h2 : ¬ (pl.length + 2 < 2) := by omega
  simp only [layout_eq, decodeFrame, hv, List.length_cons, if_neg h2, flagsByte_readonly, flagsByte_reply]
  rw [if_neg (by simp), if_neg (by omega)]

/-- DECODE of a packet whose length field has wrapped (40_framer.md R121). -/
theorem decodeFrame_layout_wrapped (ro rp : Bool) (seq c3 c2 : Byte) (pl : List Byte) (h : 65534 ≤ pl.length) :
    decodeFrame (layout ro rp seq c3 c2 pl) = .error .length := by
  have hv := length_bytes_value (pl.length + 2)
  have hlt : (pl.length + 2) % 65536 < 65536 := Nat.mod_lt _ (by omega)
  simp only [layout_eq, decodeFrame, hv, List.length_cons]
  rw [if_neg (by simp)]
  split
  · rfl
  · rw [if_pos (by omega)]

@[simp] theorem opPacket_length (p : Params) (seq : Byte) (op : Op) (pl : List Nat) :
    (opPacket p seq op pl).length = 7 + pl.length := by simp [opPacket]

/-- The operation table lists every operation once. -/
theorem op_mem_all (op : Op) : op ∈ Op.all := by cases op <;> decide

theorem op_all_nodup : Op.all.Nodup := by decide

/-- `Op.row` is the place of an operation in the table. -/
theorem op_all_row (op : Op) : Op.all[op.row.val]? = some op := by cases op <;> rfl

/-- A class asks for a reply exactly as 30_encoding.md R90 and R92 say. -/
theorem reply_eq (c : FramingClass) (ack : Bool) : c.reply ack = true ↔ c = .q ∨ (c = .a ∧ ack = true) := by
  cases c <;> cases ack <;> decide

/-- Who is among the candidates of a packet that DECODE accepts. -/
theorem mem_candidates {p : Params} {packet : List Byte} {f : Frame} (h : decodeFrame packet = .ok f) (i : Instr) :
    i ∈ candidates p packet ↔ ∃ op, f.names p op = true ∧ i ∈ ofPayload p op f.payload := by
  simp [candidates, h, frameCandidates, op_mem_all]

end Sys2Proof
end

