-- ==== Sys2Proof/Laws/Engine.lean ====
section
/-! SUPPORT. One law for each shared operation: what it answers and what it leaves. The meanings are run through
`operation_none` and never unfolded further. -/

namespace Sys2Proof.Machine

/-! Sequencing. -/

@[simp] theorem andThen_ok {α β : Type} (s : State) (a : α) (f : State → α → Res β) :
    Res.andThen (s, .ok a) f = f s a := rfl

@[simp] theorem andThen_error {α β : Type} (s : State) (e : Ending) (f : State → α → Res β) :
    Res.andThen (s, .error e) f = (s, .error e) := rfl

/-- A sequence that ends Ok has an Ok first part. -/
theorem andThen_eq_ok {α β : Type} {m : Res α} {f : State → α → Res β} {t : State} {b : β}
    (h : m.andThen f = (t, .ok b)) : ∃ s a, m = (s, .ok a) ∧ f s a = (t, .ok b) := by
  obtain ⟨s, (e | a)⟩ := m
  · simp at h
  · exact ⟨s, a, rfl, h⟩

@[simp] theorem accept_idle (body : State → Host.Outcome State Fault Refusal) {s : State} (h : s.ustep = none) :
    accept body s = body s := by simp [accept, h]

/-- What acceptance by a connected block can answer, all of it. -/
theorem serveConnected_eq (body : State → Res Value) (s : State) :
    serveConnected body s =
      if s.ustep.isSome then .refused .requestInProgress
      else if s.connected then .next (deliver (body s)) else .refused .notConnected := rfl

theorem serveConnected_ready (body : State → Res Value) {s : State} (hu : s.ustep = none) (hc : s.connected = true) :
    serveConnected body s = .next (deliver (body s)) := by
  simp [serveConnected_eq, hu, hc]

/-- A next state of a request that sends packets is that of its body, on an idle connected block. -/
theorem serveConnected_next {body : State → Res Value} {s t : State} (h : serveConnected body s = .next t) :
    s.ustep = none ∧ s.connected = true ∧ t = deliver (body s) := by
  rw [serveConnected_eq] at h
  split at h
  · cases h
  · split at h
    · rename_i hu hc
      exact ⟨by simpa using hu, hc, by injection h with h; exact h.symm⟩
    · cases h

/-! The environment's answers depend on its script, the draw counter, the history and the binding alone. -/

theorem writeAnswer_congr {s t : State} (p : List Byte) (he : s.env.writes = t.env.writes) (hd : s.draws = t.draws)
    (hh : s.history = t.history) : writeAnswer p s = writeAnswer p t := by simp [writeAnswer, he, hd, hh]

theorem readAnswer_congr {s t : State} (he : s.env.reads = t.env.reads) (hd : s.draws = t.draws)
    (hh : s.history = t.history) (hp : s.params.rxMaxLen = t.params.rxMaxLen) : readAnswer s = readAnswer t := by
  simp [readAnswer, he, hd, hh, hp]

/-- A read answers at most `RX_MAXLEN` bytes. -/
theorem readAnswer_length {s : State} {r : List Byte} (h : readAnswer s = .bytes r) : r.length ≤ s.params.rxMaxLen := by
  unfold readAnswer at h
  generalize s.env.reads.head?.getD (Config.oracleRead s.draws s.history) = a at h
  cases a with
  | failure => cases h
  | bytes b => simp only [clip, ReadAnswer.bytes.injEq] at h; subst h; simp

theorem writeAnswer_script {s : State} {p : List Byte} {a : WriteAnswer} {as : List WriteAnswer}
    (h : s.env.writes = a :: as) : writeAnswer p s = a := by simp [writeAnswer, h]

theorem readAnswer_script {s : State} {r : List Byte} {as : List ReadAnswer}
    (h : s.env.reads = .bytes r :: as) (hr : r.length ≤ s.params.rxMaxLen) : readAnswer s = .bytes r := by
  simp [readAnswer, h, clip, List.take_of_length_le hr]

theorem writeAccepted_iff (p : List Byte) (s : State) : writeAccepted p s = true ↔ writeAnswer p s = .count p.length := by
  simp [writeAccepted]

/-! The transaction engine. -/

/-- ENCODE with the fields of an operation builds the encoder's packet. -/
theorem framerEncode_op (op : Op) (pl : List Nat) (s : State) :
    framerEncode (s.params.code op).cmd2.toNat (s.params.code op).cmd3.toNat pl op.cls.readonly
      (op.cls.reply s.params.ackReply) op.cls.useSequence s =
      { s with tx := opPacket s.params s.seq op pl, seq := if op.cls.useSequence then s.seq + 1 else s.seq } := by
  simp only [framerEncode, opPacket, nextSeq, trunc8_toNat]

/-- The state after the packet of an operation has been built and handed to the transport. -/
def sent (op : Op) (pl : List Nat) (s : State) : State :=
  { afterWrite s (opPacket s.params s.seq op pl) with seq := if op.cls.useSequence then s.seq + 1 else s.seq }

theorem writeTransport_buildPacket (op : Op) (pl : List Nat) (s : State) :
    writeTransport (buildPacket op pl s) = { sent op pl s with tx := opPacket s.params s.seq op pl, rx := s.rx } := by
  simp only [writeTransport, buildPacket, emit, framerEncode_op, sent, afterWrite]
  rfl

/-- All an operation whose local check passes can do: the write fails, or the read fails, or the parser runs. -/
theorem operation_none {α : Type} (op : Op) (pl : List Nat) (parse : State → Res α) (s : State) :
    let p := opPacket s.params s.seq op pl
    let w := sent op pl s
    operation none op pl parse s =
      if writeAccepted p s then
        if op.cls.reply s.params.ackReply then
          match readAnswer w with
          | .failure => (afterRead w, .error (.transportError .read))
          | .bytes r =>
            let q := parse { afterRead w with tx := p, rx := r }
            (discardBuffers q.1, q.2)
        else
          let q := parse { w with tx := p, rx := s.rx }
          (discardBuffers q.1, q.2)
      else (w, .error (.transportError .write)) := by
  intro p w
  have hb : (buildPacket op pl s).tx = p := by
    simp only [buildPacket, framerEncode_op]; rfl
  have hw : writeTransport (buildPacket op pl s) = { w with tx := p, rx := s.rx } := writeTransport_buildPacket op pl s
  have ha : writeAccepted p (buildPacket op pl s) = writeAccepted p s := rfl
  simp only [operation, issue, hb, ha, hw]
  split
  · split
    · have hr : readAnswer { w with tx := p, rx := s.rx } = readAnswer w := rfl
      simp only [receive, hr]
      cases h : readAnswer w with
      | failure =>
        simp only [raise, andThen_error, discardBuffers, readTransport, hr, afterRead, h]
        rfl
      | bytes r =>
        simp only [andThen_ok, emit, readTransport, hr, afterRead, h]
    · simp only [andThen_ok]
  · simp only [raise, andThen_error]
    rfl

/-- A write that the transport does not accept whole ends the operation. -/
theorem operation_write_failed {α : Type} {op : Op} {pl : List Nat} (parse : State → Res α) {s : State}
    (hw : writeAccepted (opPacket s.params s.seq op pl) s = false) :
    operation none op pl parse s = (sent op pl s, .error (.transportError .write)) := by
  rw [operation_none]; simp [hw]

/-- A read that fails ends the operation. -/
theorem operation_read_failed {α : Type} {op : Op} {pl : List Nat} (parse : State → Res α) {s : State}
    (hw : writeAccepted (opPacket s.params s.seq op pl) s = true) (hk : op.cls.reply s.params.ackReply = true)
    (hr : readAnswer (sent op pl s) = .failure) :
    operation none op pl parse s = (afterRead (sent op pl s), .error (.transportError .read)) := by
  rw [operation_none]; simp [hw, hk, hr]

/-- The state in which the parser runs on the response `r`. -/
def answered (op : Op) (pl : List Nat) (s : State) (r : List Byte) : State :=
  { afterRead (sent op pl s) with tx := opPacket s.params s.seq op pl, rx := r }

/-- The parser runs on the response that was read. -/
theorem operation_answered {α : Type} {op : Op} {pl : List Nat} (parse : State → Res α) {s : State} {r : List Byte}
    (hw : writeAccepted (opPacket s.params s.seq op pl) s = true) (hk : op.cls.reply s.params.ackReply = true)
    (hr : readAnswer (sent op pl s) = .bytes r) :
    operation none op pl parse s =
      (discardBuffers (parse (answered op pl s r)).1, (parse (answered op pl s r)).2) := by
  rw [operation_none]; simp only [hw, hk, hr, if_true]; rfl

/-- An operation without a result whose packet asks for no reply. -/
theorem operation_silent {op : Op} {pl : List Nat} {s : State}
    (hw : writeAccepted (opPacket s.params s.seq op pl) s = true) (hk : op.cls.reply s.params.ackReply = false) :
    operation none op pl noResult s = (sent op pl s, .ok .none) := by
  rw [operation_none]; simp only [hw, hk, if_true, noResult, discardBuffers]; rfl

/-- An operation without a result whose reply is discarded unexamined (40_framer.md R129). -/
theorem operation_acknowledged {op : Op} {pl : List Nat} {s : State} {r : List Byte}
    (hw : writeAccepted (opPacket s.params s.seq op pl) s = true) (hk : op.cls.reply s.params.ackReply = true)
    (hr : readAnswer (sent op pl s) = .bytes r) :
    operation none op pl noResult s = (afterRead (sent op pl s), .ok .none) := by
  rw [operation_answered noResult hw hk hr]; rfl

@[simp] theorem operation_check {α : Type} (c : ConfigCause) (op : Op) (pl : List Nat) (parse : State → Res α) (s : State) :
    operation (some c) op pl parse s = (s, .error (.configurationError c)) := rfl

/-! The response parser. -/

/-- `Byte(r, off)` is the byte at that offset, where the response has one. -/
theorem rxByte_eq (rx : List Byte) (off : Nat) : rxByte rx off = rx[off]? := by
  unfold rxByte memRead
  by_cases h : off < rx.length
  · rw [if_pos (by omega), List.getElem?_eq_getElem h, List.drop_eq_getElem_cons h]; rfl
  · rw [if_neg (by omega), List.getElem?_eq_none (by omega)]

/-- `Triple(r, off)` is the three bytes from that offset, where the response has all three. -/
theorem rxTriple_eq (rx : List Byte) (off : Nat) :
    rxTriple rx off = match rx.drop off with
      | a :: b :: c :: _ => some (a, b, c)
      | _ => none := by
  unfold rxTriple memRead
  have hl := List.length_drop (l := rx) (i := off)
  generalize rx.drop off = d at hl
  match d, hl with
  | [], hl => rw [if_neg (by simp at hl; omega)]
  | [_], hl => rw [if_neg (by simp at hl; omega)]
  | [_, _], hl => rw [if_neg (by simp at hl; omega)]
  | a :: b :: c :: _, hl => rw [if_pos (by simp at hl; omega)]; rfl

theorem rxByte_short {rx : List Byte} {off : Nat} (h : rx.length < off + 1) : rxByte rx off = none := by
  simp [rxByte, memRead, show ¬ off + 1 ≤ rx.length by omega]

theorem rxTriple_short {rx : List Byte} {off : Nat} (h : rx.length < off + 3) : rxTriple rx off = none := by
  simp [rxTriple, memRead, show ¬ off + 3 ≤ rx.length by omega]

@[simp] theorem parsed_some {α β : Type} (a : α) (use : α → State → State × β) (s : State) :
    parsed (some a) use s = ((use a s).1, .ok (use a s).2) := rfl
@[simp] theorem parsed_none {α β : Type} (use : α → State → State × β) (s : State) :
    parsed none use s = (s, .error .responseUnderrun) := rfl

/-! The procedure sequencer. -/

@[simp] theorem runSteps_nil (k : Nat) (s : State) : runSteps k [] s = (s, .ok .none) := rfl

theorem runSteps_cons (k : Nat) (f : State → Res Value) (rest : List (State → Res Value)) (s : State) :
    runSteps k (f :: rest) s = (f s).andThen fun s' _ => runSteps (k + 1) rest (setUstep (k + 1) s') := rfl

/-- A property that every step keeps, and `USTEP` does not touch, is kept by the whole line of steps. -/
theorem runSteps_keeps (P : State → Prop) (hu : ∀ s n, P s → P (setUstep n s))
    (steps : List (State → Res Value)) (hs : ∀ f ∈ steps, ∀ s, P s → P (f s).1) :
    ∀ (k : Nat) (s : State), P s → P (runSteps k steps s).1 := by
  induction steps with
  | nil => intro k s h; exact h
  | cons f rest ih =>
    intro k s h
    have hf := hs f (by simp) s h
    rw [runSteps_cons]
    generalize f s = r at hf ⊢
    rcases r with ⟨s', (e | v)⟩
    · exact hf
    · exact ih (fun g hg => hs g (by simp [hg])) _ _ (hu _ _ hf)

/-- The same for the attempts of VALIDATE. -/
theorem validateAttempts_keeps (P : State → Prop) (hu : ∀ s n, P s → P (setUstep n s))
    (hc : ∀ s, P s → P (sampleCancel s)) (hv : ∀ s, P s → P (opValidGet s).1) :
    ∀ (left k : Nat) (s : State), P s → P (validateAttempts k left s).1 := by
  intro left
  induction left with
  | zero => intro k s h; exact h
  | succ left ih =>
    intro k s h
    simp only [validateAttempts]
    have h1 := hc _ (hu s 1 h)
    split
    · exact h1
    · have h2 := hv _ h1
      generalize opValidGet (sampleCancel (setUstep 1 s)) = r at h2 ⊢
      rcases r with ⟨s2, (e | ⟨busy, f, v⟩)⟩
      · exact h2
      · simp only [andThen_ok]
        split
        · exact ih _ _ (hu _ _ h2)
        · exact hu _ _ h2

/-- The same for the attempts of POLLSTAT. -/
theorem pollAttempts_keeps (P : State → Prop) (hu : ∀ s n, P s → P (setUstep n s))
    (hc : ∀ s, P s → P (sampleCancel s)) (hq : ∀ f ∈ statusQueries, ∀ s, P s → P (f s).1) :
    ∀ (left k : Nat) (s : State), P s → P (pollAttempts k left s).1 := by
  intro left
  induction left with
  | zero => intro k s h; exact h
  | succ left ih =>
    intro k s h
    simp only [pollAttempts]
    have h1 := hc _ (hu s 0 h)
    split
    · exact h1
    · have h2 := runSteps_keeps P hu statusQueries hq 0 _ h1
      generalize runSteps 0 statusQueries (sampleCancel (setUstep 0 s)) = r at h2 ⊢
      rcases r with ⟨s2, (e | v)⟩
      · exact h2
      · simp only [andThen_ok]
        split
        · exact h2
        · exact ih _ _ h2

/-! Histories. -/

@[simp] theorem packetsWritten_append (h h' : List TransportEvent) :
    packetsWritten (h ++ h') = packetsWritten h ++ packetsWritten h' := by simp [packetsWritten]

@[simp] theorem readsMade_append (h h' : List TransportEvent) : readsMade (h ++ h') = readsMade h + readsMade h' := by
  simp [readsMade]

@[simp] theorem readsBounded_append (p : Params) (h h' : List TransportEvent) :
    readsBounded p (h ++ h') = (readsBounded p h && readsBounded p h') := by simp [readsBounded]

/-- Replay goes on where it stood. -/
theorem replay_append {c c' : Bool} {h : List TransportEvent} (h' : List TransportEvent) (hr : replay c h = some c') :
    replay c (h ++ h') = replay c' h' := by
  fun_induction replay c h with
  | case1 c => simp_all
  | case9 c packet answer rest hp hr' ih =>
    rw [List.cons_append, replay.eq_def]
    simp only [if_pos hp, if_neg hr']
    exact ih hr
  | _ => simp_all [replay]

/-- Runs over several requests compose. -/
theorem serveAll_cons (i : Instr) (rest : List Instr) (s : State) :
    serveAll (i :: rest) s = match exec i s with
      | .next s' => serveAll rest s'
      | _ => none := rfl

end Sys2Proof.Machine
end

