-- ==== Sys2Proof/Laws/Operations.lean ====
section
/-! SUPPORT. The inversion law of the dispatcher: every way an operation can end, once for the engine and once for each
of the 34 operations, and what accesses leave in a state. -/

namespace Sys2Proof.Machine

/-- Every way an operation whose local check passes can end; `writes` bounds what its parser does to the snapshot. -/
inductive OperationEnds {α : Type} (writes : Snapshot → Snapshot → Prop) (op : Op) (pl : List Nat) (s : State) :
    Res α → Prop
  | writeFailed (hw : writeAccepted (opPacket s.params s.seq op pl) s = false) :
      OperationEnds writes op pl s (sent op pl s, .error (.transportError .write))
  | readFailed (hw : writeAccepted (opPacket s.params s.seq op pl) s = true)
      (hk : op.cls.reply s.params.ackReply = true) (hr : readAnswer (sent op pl s) = .failure) :
      OperationEnds writes op pl s (afterRead (sent op pl s), .error (.transportError .read))
  | silent (v : α) (hw : writeAccepted (opPacket s.params s.seq op pl) s = true)
      (hk : op.cls.reply s.params.ackReply = false) : OperationEnds writes op pl s (sent op pl s, .ok v)
  | answered (r : List Byte) (snap : Snapshot) (v : α) (hw : writeAccepted (opPacket s.params s.seq op pl) s = true)
      (hk : op.cls.reply s.params.ackReply = true) (hr : readAnswer (sent op pl s) = .bytes r)
      (hs : writes s.snap snap) : OperationEnds writes op pl s ({ afterRead (sent op pl s) with snap := snap }, .ok v)
  | underrun (r : List Byte) (hw : writeAccepted (opPacket s.params s.seq op pl) s = true)
      (hk : op.cls.reply s.params.ackReply = true) (hq : op.cls = .q) (hr : readAnswer (sent op pl s) = .bytes r) :
      OperationEnds writes op pl s (afterRead (sent op pl s), .error .responseUnderrun)

/-- What a parser may do: answer Ok and write the snapshot within `writes`, or raise ResponseUnderrun and write nothing;
outside class Q it only answers Ok (40_framer.md R129, R131). -/
def ParserFits {α : Type} (writes : Snapshot → Snapshot → Prop) (c : FramingClass) (parse : State → Res α) : Prop :=
  (∀ u, (∃ snap v, parse u = ({ u with snap := snap }, .ok v) ∧ writes u.snap snap) ∨
    (c = .q ∧ parse u = (u, .error .responseUnderrun))) ∧
  (c ≠ .q → ∀ u, ∃ v, parse u = (u, .ok v))

/-- The inversion law of the transaction engine. -/
theorem operation_ends {α : Type} {writes : Snapshot → Snapshot → Prop} {op : Op} {parse : State → Res α}
    (hp : ParserFits writes op.cls parse) (pl : List Nat) (s : State) :
    OperationEnds writes op pl s (operation none op pl parse s) := by
  cases hw : writeAccepted (opPacket s.params s.seq op pl) s with
  | false => rw [operation_write_failed parse hw]; exact .writeFailed hw
  | true =>
    cases hk : op.cls.reply s.params.ackReply with
    | false =>
      have hc : op.cls ≠ .q := by intro h; rw [h] at hk; cases hk
      obtain ⟨v, hv⟩ := hp.2 hc { sent op pl s with tx := opPacket s.params s.seq op pl, rx := s.rx }
      rw [operation_none]
      simp only [hw, hk, if_true, hv]
      exact .silent v hw hk
    | true =>
      cases hr : readAnswer (sent op pl s) with
      | failure => rw [operation_read_failed parse hw hk hr]; exact .readFailed hw hk hr
      | bytes r =>
        rw [operation_answered parse hw hk hr]
        obtain ⟨snap, v, hv, hs⟩ | ⟨hq, hv⟩ := hp.1 (answered op pl s r)
        · rw [hv]; exact .answered r snap v hw hk hr hs
        · rw [hv]; exact .underrun r hw hk hq hr

/-! The parsers. -/

/-- The parser of an operation without a result. -/
theorem noResult_fits (c : FramingClass) : ParserFits (fun a b => b = a) c noResult :=
  ⟨fun u => .inl ⟨u.snap, .none, rfl, rfl⟩, fun _ _ => ⟨.none, rfl⟩⟩

/-- A parser of a query: what it finds in the response it stores with `store` and answers. -/
theorem parsed_fits {α β : Type} {writes : Snapshot → Snapshot → Prop} (find : List Byte → Option α)
    (use : α → State → State × β) (hu : ∀ a u, ∃ snap v, use a u = ({ u with snap := snap }, v) ∧ writes u.snap snap) :
    ParserFits writes .q fun u => parsed (find u.rx) use u := by
  refine ⟨fun u => ?_, fun h => absurd rfl h⟩
  show (∃ snap v, parsed (find u.rx) use u = ({ u with snap := snap }, .ok v) ∧ _) ∨
    (_ ∧ parsed (find u.rx) use u = (u, .error .responseUnderrun))
  cases find u.rx with
  | none => exact .inr ⟨rfl, rfl⟩
  | some a =>
    obtain ⟨snap, v, hv, hs⟩ := hu a u
    exact .inl ⟨snap, v, by rw [parsed_some, hv], hs⟩

/-- A parser that stores nothing. -/
theorem parsed_pure_fits {α β : Type} (find : List Byte → Option α) (value : α → β) :
    ParserFits (fun a b => b = a) .q fun u => parsed (find u.rx) (fun a u => (u, value a)) u :=
  parsed_fits find _ fun a u => ⟨u.snap, value a, rfl, rfl⟩

/-! The local checks: each has one cause, and passes exactly under its condition. -/

theorem checkTrigmode_eq (mode : Nat) : checkTrigmode mode = if mode > 4 then some .triggerMode else none := rfl

theorem checkPatsrc_eq (src : Nat) :
    checkPatsrc src = if src = 0 ∨ src = 3 then none else some .patternInputSource := by
  by_cases h : src = 0 ∨ src = 3
  · rw [if_pos h]; exact if_neg (by simp only [patsrcRaw, patsrcFlash]; omega)
  · rw [if_neg h]; exact if_pos (by simp only [patsrcRaw, patsrcFlash]; omega)

theorem checkMailbox_eq (fn : Nat) :
    checkMailbox fn = if fn = 1 ∨ fn = 2 ∨ fn = 3 then none else some .mailboxFunction := by
  by_cases h : fn = 1 ∨ fn = 2 ∨ fn = 3
  · rw [if_pos h]; exact if_neg (by omega)
  · rw [if_neg h]; exact if_pos (by omega)

theorem checkLed_eq (r g b : Nat) (strict : Bool) :
    checkLed r g b strict =
      if r > 255 ∨ g > 255 ∨ b > 255 ∨ (strict = true ∧ 69 * r + 71 * g + 63 * b + 9611 > 42000) then some .ledCurrent
      else none := by
  have hv : checkLedCurrent r g b strict = .pass ↔
      ¬ (r > 255 ∨ g > 255 ∨ b > 255 ∨ (strict = true ∧ 69 * r + 71 * g + 63 * b + 9611 > 42000)) := by
    have ht : ledTotal r g b = 69 * r + 71 * g + 63 * b + 9611 := rfl
    have hl : ledLimit = 42000 := rfl
    rw [← ht, ← hl]
    unfold checkLedCurrent
    split
    · exact ⟨fun hp => (by cases hp), fun hn => absurd (by tauto) hn⟩
    · split
      · exact ⟨fun hp => (by cases hp), fun hn => absurd (by tauto) hn⟩
      · exact ⟨fun _ => by tauto, fun _ => rfl⟩
  by_cases h : r > 255 ∨ g > 255 ∨ b > 255 ∨ (strict = true ∧ 69 * r + 71 * g + 63 * b + 9611 > 42000)
  · rw [if_pos h]; exact if_neg fun hp => hv.1 hp h
  · rw [if_neg h]; exact if_pos (hv.2 h)

/-! The 34 operations. -/

/-- The local check of an operation (60_exceptions.md R281). -/
def localCheck : Instr → Option ConfigCause
  | .trigmodeSet mode => checkTrigmode mode
  | .patsrcSet src => checkPatsrc src
  | .mboxOpen fn => checkMailbox fn
  | .ledcurSet r g b strict => checkLed r g b strict
  | _ => none

/-- Which snapshot fields a request may write, and that a written field is never absent afterwards (10_state.md R24 to
R26). -/
def SnapWrites (i : Instr) (a b : Snapshot) : Prop :=
  match i with
  | .hwstatGet => ∃ v, b = { a with hw := some v }
  | .sysstatGet => ∃ v, b = { a with sys := some v }
  | .mainstatGet => ∃ v, b = { a with main := some v }
  | .dispmodeGet => ∃ v, b = { a with dispmode := some v }
  | .insrcGet => ∃ v, b = { a with insrc := some v }
  | .ledcurGet => ∃ x y z, b = { a with ledR := some x, ledG := some y, ledB := some z }
  | _ => b = a

/-- VALID_GET is one operation whose parser answers the three parts of the data byte. -/
theorem execValidGet_eq (s : State) :
    execValidGet s = serveConnected (operation none .validGet [] fun s =>
      parsed (rxByte s.rx resultOffset)
        (fun v s => (s, .validation (validationBusy v) (validationFaults v) v)) s) s := by
  have h : ∀ s : State,
      ((opValidGet s).andThen fun s' (x : Bool × BitVec 5 × Byte) => (s', .ok (.validation x.1 x.2.1 x.2.2))) =
      operation none .validGet [] (fun s => parsed (rxByte s.rx resultOffset)
        (fun v s => (s, Value.validation (validationBusy v) (validationFaults v) v)) s) s := by
    intro s
    unfold opValidGet
    have hk : Op.validGet.cls.reply s.params.ackReply = true := rfl
    cases hw : writeAccepted (opPacket s.params s.seq .validGet []) s with
    | false => rw [operation_write_failed _ hw, operation_write_failed _ hw]; rfl
    | true =>
      cases hr : readAnswer (sent .validGet [] s) with
      | failure => rw [operation_read_failed _ hw hk hr, operation_read_failed _ hw hk hr]; rfl
      | bytes r =>
        rw [operation_answered _ hw hk hr, operation_answered _ hw hk hr]
        simp only [answered]
        cases rxByte r resultOffset <;> rfl
  simp only [serveConnected_eq, ← h]
  rfl

/-- Every operation is its local check, its packet and a parser that fits. -/
theorem exec_is_operation {s : State} {i : Instr} {op : Op} {pl : List Nat} (hi : i.wire s.params = some (op, pl)) :
    ∃ parse : State → Res Value, ParserFits (SnapWrites i) op.cls parse ∧
      exec i s = serveConnected (operation (localCheck i) op pl parse) s := by
  cases i <;> simp only [Instr.wire, Option.some.injEq, Prod.mk.injEq, reduceCtorEq] at hi
  all_goals (obtain ⟨rfl, rfl⟩ := hi)
  case hwstatGet => refine ⟨_, ?_, rfl⟩; exact parsed_fits (rxByte · resultOffset) _ fun a u => ⟨_, _, rfl, a, rfl⟩
  case sysstatGet => refine ⟨_, ?_, rfl⟩; exact parsed_fits (rxByte · resultOffset) _ fun a u => ⟨_, _, rfl, a, rfl⟩
  case mainstatGet => refine ⟨_, ?_, rfl⟩; exact parsed_fits (rxByte · resultOffset) _ fun a u => ⟨_, _, rfl, a, rfl⟩
  case dispmodeGet => refine ⟨_, ?_, rfl⟩; exact parsed_fits (rxBits · resultOffset 1) _ fun a u => ⟨_, _, rfl, a, rfl⟩
  case insrcGet => refine ⟨_, ?_, rfl⟩; exact parsed_fits (rxBits · resultOffset 2) _ fun a u => ⟨_, _, rfl, a, rfl⟩
  case ledcurGet => refine ⟨_, ?_, rfl⟩; exact parsed_fits (rxTriple · resultOffset) _ fun a u => ⟨_, _, rfl, _, _, _, rfl⟩
  case curbufGet => refine ⟨_, ?_, rfl⟩; exact parsed_pure_fits (rxBits · resultOffset 1) _
  case imgtimeGet => refine ⟨_, ?_, rfl⟩; exact parsed_pure_fits (rxTick · resultOffset) _
  case ledenGet => refine ⟨_, ?_, rfl⟩; exact parsed_pure_fits (rxByte · resultOffset) _
  case ledpolGet => refine ⟨_, ?_, rfl⟩; exact parsed_pure_fits (rxByte · resultOffset) _
  case gpioGet => refine ⟨_, ?_, rfl⟩; exact parsed_pure_fits (rxByte · addressedOffset) _
  case validGet => exact ⟨_, parsed_pure_fits (rxByte · resultOffset) _, execValidGet_eq s⟩
  all_goals exact ⟨noResult, noResult_fits _, rfl⟩

/-- Every way one of the 34 operations can end on an idle connected block. -/
theorem exec_operation_ends {s : State} {i : Instr} {op : Op} {pl : List Nat} (hu : s.ustep = none)
    (hc : s.connected = true) (hi : i.wire s.params = some (op, pl)) :
    ∃ r : Res Value, exec i s = .next (deliver r) ∧
      ((∃ c, localCheck i = some c ∧ r = (s, .error (.configurationError c))) ∨
       (localCheck i = none ∧ OperationEnds (SnapWrites i) op pl s r)) := by
  obtain ⟨parse, hp, he⟩ := exec_is_operation hi
  refine ⟨_, by rw [he, serveConnected_ready _ hu hc], ?_⟩
  cases hl : localCheck i with
  | some c => exact .inl ⟨c, rfl, rfl⟩
  | none => exact .inr ⟨rfl, operation_ends hp pl s⟩

/-- An operation answers a next state only on an idle connected block. -/
theorem exec_operation_next {s t : State} {i : Instr} {op : Op} {pl : List Nat} (hi : i.wire s.params = some (op, pl))
    (h : exec i s = .next t) : s.ustep = none ∧ s.connected = true := by
  obtain ⟨parse, -, he⟩ := exec_is_operation hi
  obtain ⟨hu, hc, -⟩ := serveConnected_next (he ▸ h)
  exact ⟨hu, hc⟩

/-! The constituent operations of the procedures. -/

theorem opHwstatGet_ends (s : State) : OperationEnds (SnapWrites .hwstatGet) .hwstatGet [] s (opHwstatGet s) :=
  operation_ends (parsed_fits (rxByte · resultOffset) _ fun a _ => ⟨_, _, rfl, a, rfl⟩) _ _
theorem opSysstatGet_ends (s : State) : OperationEnds (SnapWrites .sysstatGet) .sysstatGet [] s (opSysstatGet s) :=
  operation_ends (parsed_fits (rxByte · resultOffset) _ fun a _ => ⟨_, _, rfl, a, rfl⟩) _ _
theorem opMainstatGet_ends (s : State) : OperationEnds (SnapWrites .mainstatGet) .mainstatGet [] s (opMainstatGet s) :=
  operation_ends (parsed_fits (rxByte · resultOffset) _ fun a _ => ⟨_, _, rfl, a, rfl⟩) _ _
theorem opValidStart_ends (s : State) :
    OperationEnds (fun a b => b = a) .validStart (s.params.validStartPayload.map BitVec.toNat) s (opValidStart s) :=
  operation_ends (noResult_fits _) _ _
theorem opValidGet_ends (s : State) : OperationEnds (fun a b => b = a) .validGet [] s (opValidGet s) :=
  operation_ends (parsed_pure_fits (rxByte · resultOffset) _) _ _

/-! What an access leaves. -/

@[simp] theorem sent_connected (op : Op) (pl : List Nat) (s : State) : (sent op pl s).connected = s.connected := rfl
@[simp] theorem sent_cfg (op : Op) (pl : List Nat) (s : State) : (sent op pl s).cfg = s.cfg := rfl
@[simp] theorem sent_snap (op : Op) (pl : List Nat) (s : State) : (sent op pl s).snap = s.snap := rfl
@[simp] theorem sent_params (op : Op) (pl : List Nat) (s : State) : (sent op pl s).params = s.params := rfl
@[simp] theorem sent_ustep (op : Op) (pl : List Nat) (s : State) : (sent op pl s).ustep = s.ustep := rfl
@[simp] theorem sent_tx (op : Op) (pl : List Nat) (s : State) : (sent op pl s).tx = [] := rfl
@[simp] theorem sent_rx (op : Op) (pl : List Nat) (s : State) : (sent op pl s).rx = [] := rfl
@[simp] theorem sent_requests (op : Op) (pl : List Nat) (s : State) : (sent op pl s).requests = s.requests := rfl
@[simp] theorem sent_outcome (op : Op) (pl : List Nat) (s : State) : (sent op pl s).outcome = s.outcome := rfl
@[simp] theorem sent_draws (op : Op) (pl : List Nat) (s : State) : (sent op pl s).draws = s.draws + 1 := rfl
@[simp] theorem sent_env (op : Op) (pl : List Nat) (s : State) :
    (sent op pl s).env = { s.env with writes := s.env.writes.tail } := rfl
@[simp] theorem sent_seq (op : Op) (pl : List Nat) (s : State) :
    (sent op pl s).seq = if op.cls.useSequence then s.seq + 1 else s.seq := rfl
@[simp] theorem sent_history (op : Op) (pl : List Nat) (s : State) :
    (sent op pl s).history = s.history ++
      [.wrote (opPacket s.params s.seq op pl) (writeAnswer (opPacket s.params s.seq op pl) s)] := rfl
@[simp] theorem sent_trace (op : Op) (pl : List Nat) (s : State) :
    (sent op pl s).trace = if s.cfg.debug then s.trace ++ [.tx (opPacket s.params s.seq op pl)] else s.trace := rfl

@[simp] theorem afterRead_connected (s : State) : (afterRead s).connected = s.connected := rfl
@[simp] theorem afterRead_cfg (s : State) : (afterRead s).cfg = s.cfg := rfl
@[simp] theorem afterRead_snap (s : State) : (afterRead s).snap = s.snap := rfl
@[simp] theorem afterRead_params (s : State) : (afterRead s).params = s.params := rfl
@[simp] theorem afterRead_ustep (s : State) : (afterRead s).ustep = s.ustep := rfl
@[simp] theorem afterRead_tx (s : State) : (afterRead s).tx = s.tx := rfl
@[simp] theorem afterRead_rx (s : State) : (afterRead s).rx = s.rx := rfl
@[simp] theorem afterRead_requests (s : State) : (afterRead s).requests = s.requests := rfl
@[simp] theorem afterRead_outcome (s : State) : (afterRead s).outcome = s.outcome := rfl
@[simp] theorem afterRead_draws (s : State) : (afterRead s).draws = s.draws + 1 := rfl
@[simp] theorem afterRead_seq (s : State) : (afterRead s).seq = s.seq := rfl
@[simp] theorem afterRead_env (s : State) : (afterRead s).env = { s.env with reads := s.env.reads.tail } := rfl
@[simp] theorem afterRead_history (s : State) :
    (afterRead s).history = s.history ++ [.read s.params.rxMaxLen s.params.rxTimeoutMs (readAnswer s)] := rfl

/-- The two accesses of an operation that asks for a reply, as the history records them. -/
theorem afterRead_sent_history (op : Op) (pl : List Nat) (s : State) :
    (afterRead (sent op pl s)).history = s.history ++
      [.wrote (opPacket s.params s.seq op pl) (writeAnswer (opPacket s.params s.seq op pl) s),
       .read s.params.rxMaxLen s.params.rxTimeoutMs (readAnswer (sent op pl s))] := by simp

/-- Every packet of an operation has the one format (30_encoding.md R80). -/
theorem packetForm_opPacket (p : Params) (seq : Byte) (op : Op) (pl : List Nat) :
    packetForm (opPacket p seq op pl) = true := by
  simp [opPacket, layout_eq, packetForm, trunc8]
  exact flagsByte_reserved _ _

/-- Its `reply` bit is that of its class (30_encoding.md R92). -/
theorem replyBit_opPacket (p : Params) (seq : Byte) (op : Op) (pl : List Nat) :
    replyBit (opPacket p seq op pl) = op.cls.reply p.ackReply := by
  simp only [opPacket, layout_eq, replyBit, flagsByte_reply]

end Sys2Proof.Machine
end

