-- ==== Sys2Proof/Laws/Requests.lean ====
section
/-! SUPPORT. The preservation principle: what the accesses and register writes keep, every request keeps. An invariant is
proved of the accesses once and follows for all 41 requests and every step. -/

namespace Sys2Proof.Machine

/-- A constituent operation of a procedure: it is rejected by its local check or ends as the engine lets it end. -/
def IsConstituent (f : State → Res Value) : Prop :=
  ∀ u, (∃ c, f u = (u, .error (.configurationError c))) ∨
    ∃ op pl writes, OperationEnds writes op pl u (f u)

theorem operation_isConstituent {writes : Snapshot → Snapshot → Prop} {op : Op} {parse : State → Res Value}
    (hp : ParserFits writes op.cls parse) (check : Option ConfigCause) (pl : List Nat) :
    IsConstituent (operation check op pl parse) := by
  intro u
  cases check with
  | some c => exact .inl ⟨c, rfl⟩
  | none => exact .inr ⟨op, pl, writes, operation_ends hp pl u⟩

theorem opMboxClose_isConstituent : IsConstituent opMboxClose := fun u =>
  .inr ⟨.mboxClose, _, _, operation_ends (noResult_fits _) _ u⟩

/-- The twelve steps of UPLOAD are constituent operations. -/
theorem uploadSteps_constituent (p : Params) (raw idx : List Nat) (exp : Nat) (longer : Bool) (mode : Nat) (rep : Bool) :
    ∀ f ∈ uploadSteps p raw idx exp longer mode rep, IsConstituent f := by
  intro f hf
  simp only [uploadSteps, List.mem_cons, List.not_mem_nil, or_false] at hf
  rcases hf with rfl | rfl | rfl | rfl | rfl | rfl | rfl | rfl | rfl | rfl | rfl | rfl
  all_goals first
    | exact opMboxClose_isConstituent
    | exact operation_isConstituent (noResult_fits _) _ _

/-- The three steps of an attempt of POLLSTAT are constituent operations. -/
theorem statusQueries_constituent : ∀ f ∈ statusQueries, IsConstituent f := by
  intro f hf
  simp only [statusQueries, List.mem_cons, List.not_mem_nil, or_false] at hf
  rcases hf with rfl | rfl | rfl
  · exact fun u => .inr ⟨_, _, _, opHwstatGet_ends u⟩
  · exact fun u => .inr ⟨_, _, _, opSysstatGet_ends u⟩
  · exact fun u => .inr ⟨_, _, _, opMainstatGet_ends u⟩

/-- What has to be shown of a property for every request to keep it: the accesses a connected block makes, the register
writes, and the two accesses that open and close. -/
structure KeptByAccesses (P : State → Prop) : Prop where
  sent : ∀ op pl u, u.connected = true →
    (writeAccepted (opPacket u.params u.seq op pl) u = true → op.cls.reply u.params.ackReply = false) →
    P u → P (sent op pl u)
  answered : ∀ op pl u, u.connected = true → writeAccepted (opPacket u.params u.seq op pl) u = true →
    op.cls.reply u.params.ackReply = true → P u → P (afterRead (Machine.sent op pl u))
  snap : ∀ u snap, P u → P { u with snap := snap }
  ustep : ∀ u n, P u → P { u with ustep := n }
  cancel : ∀ u, P u → P (sampleCancel u)
  outcome : ∀ u o, P u → P { u with outcome := o }
  opened : ∀ u, u.connected = false → openAnswer u = .handle → P u → P { openTransport u with connected := true }
  openFailed : ∀ u, u.connected = false → openAnswer u = .failure → P u → P (closeTransport (openTransport u))
  closed : ∀ u, u.connected = true → P u → P { closeTransport u with connected := false }
  encoded : ∀ u seq, P u → P { u with tx := [], rx := [], seq := seq }

namespace KeptByAccesses

variable {P : State → Prop} (k : KeptByAccesses P)

/-- A property together with the connection, which no operation touches. -/
abbrev Linked (P : State → Prop) (u : State) : Prop := u.connected = true ∧ P u

include k

theorem operationEnds {α : Type} {writes : Snapshot → Snapshot → Prop} {op : Op} {pl : List Nat} {u : State} {r : Res α}
    (hr : OperationEnds writes op pl u r) (h : Linked P u) : Linked P r.1 := by
  obtain ⟨hc, hp⟩ := h
  cases hr with
  | writeFailed hw => exact ⟨hc, k.sent op pl u hc (fun h => by rw [hw] at h; cases h) hp⟩
  | silent v hw hk => exact ⟨hc, k.sent op pl u hc (fun _ => hk) hp⟩
  | readFailed hw hk hr => exact ⟨hc, k.answered op pl u hc hw hk hp⟩
  | answered r snap v hw hk hr hs => exact ⟨hc, k.snap _ _ (k.answered op pl u hc hw hk hp)⟩
  | underrun r hw hk hq hr => exact ⟨hc, k.answered op pl u hc hw hk hp⟩

theorem constituent {f : State → Res Value} (hf : IsConstituent f) (u : State) (h : Linked P u) : Linked P (f u).1 := by
  obtain ⟨c, hc⟩ | ⟨op, pl, writes, hr⟩ := hf u
  · rw [hc]; exact h
  · exact k.operationEnds hr h

theorem setUstep (u : State) (n : Nat) (h : Linked P u) : Linked P (setUstep n u) := ⟨h.1, k.ustep u _ h.2⟩

theorem sampleCancel (u : State) (h : Linked P u) : Linked P (sampleCancel u) := by
  refine ⟨?_, k.cancel u h.2⟩
  unfold Machine.sampleCancel
  split <;> exact h.1

theorem procedure {body : State → Res Value} (hb : ∀ u, Linked P u → Linked P (body u).1) (u : State)
    (h : Linked P u) : Linked P (procedure body u).1 :=
  have h' := hb _ (k.setUstep u 0 h)
  ⟨h'.1, k.ustep _ _ h'.2⟩

theorem uploadBody (raw idx : List Nat) (exp : Nat) (longer : Bool) (mode : Nat) (rep : Bool) (u : State)
    (h : Linked P u) : Linked P (uploadBody raw idx exp longer mode rep u).1 := by
  unfold Machine.uploadBody
  split
  · exact h
  · exact k.procedure (fun v hv => runSteps_keeps (Linked P) k.setUstep _
      (fun f hf w hw => k.constituent (uploadSteps_constituent _ _ _ _ _ _ _ f hf) w hw) 0 v hv) u h

theorem validateBody (n : Nat) (u : State) (h : Linked P u) : Linked P (validateBody n u).1 := by
  refine k.procedure (fun v hv => ?_) u h
  have h1 := k.operationEnds (opValidStart_ends v) hv
  generalize opValidStart v = r at h1 ⊢
  rcases r with ⟨v1, (e | w)⟩
  · exact h1
  · exact validateAttempts_keeps (Linked P) k.setUstep k.sampleCancel
      (fun w hw => k.operationEnds (opValidGet_ends w) hw) n 1 v1 h1

theorem pollBody (retries : Option Nat) (u : State) (h : Linked P u) : Linked P (pollBody retries u).1 :=
  k.procedure (fun v hv => pollAttempts_keeps (Linked P) k.setUstep k.sampleCancel
    (fun f hf w hw => k.constituent (statusQueries_constituent f hf) w hw) _ 1 v hv) u h

/-- The preservation principle. -/
theorem exec {i : Instr} {s t : State} (he : exec i s = .next t) (h : P s) : P t := by
  have connected : ∀ {body : State → Res Value}, Machine.exec i s = serveConnected body s →
      (∀ u, Linked P u → Linked P (body u).1) → P t := by
    intro body hb hk
    obtain ⟨-, hc, rfl⟩ := serveConnected_next (hb ▸ he)
    exact k.outcome _ _ (hk s ⟨hc, h⟩).2
  cases hi : i.wire s.params with
  | some q =>
    obtain ⟨op, pl⟩ := q
    obtain ⟨parse, hp, hb⟩ := exec_is_operation hi
    exact connected hb fun u hu => k.constituent (operation_isConstituent hp _ _) u hu
  | none =>
    cases i <;> simp only [Instr.wire, reduceCtorEq] at hi
    case upload raw idx exp longer mode rep => exact connected rfl fun u hu => k.uploadBody raw idx exp longer mode rep u hu
    case validate n => exact connected rfl fun u hu => k.validateBody n u hu
    case pollstat r => exact connected rfl fun u hu => k.pollBody r u hu
    case encode c2 c3 pl ro rp us =>
      simp only [Machine.exec, execEncode, accept] at he
      split at he
      · cases he
      · injection he with he; subst he
        exact k.outcome _ _ (k.encoded s _ h)
    case decode p =>
      simp only [Machine.exec, execDecode, accept] at he
      split at he
      · cases he
      · split at he <;> (injection he with he; subst he; exact k.outcome _ _ h)
    case connect =>
      simp only [Machine.exec, execConnect, accept] at he
      split at he
      · cases he
      · split at he
        · cases he
        · rename_i hc
          have hc : s.connected = false := by simpa using hc
          injection he with he; subst he
          simp only [connectBody]
          cases ho : openAnswer s with
          | handle => exact k.outcome _ _ (k.opened s hc ho h)
          | failure => exact k.outcome _ _ (k.openFailed s hc ho h)
    case disconnect =>
      simp only [Machine.exec, execDisconnect, accept] at he
      split at he
      · cases he
      · injection he with he; subst he
        simp only [disconnectBody]
        split
        · rename_i hc; exact k.outcome _ _ (k.closed s hc h)
        · exact k.outcome _ _ h

end KeptByAccesses

/-- After every request no procedure is in progress (10_state.md R28). -/
theorem exec_ustep {i : Instr} {s t : State} (h : exec i s = .next t) : t.ustep = none := by
  cases hi : i.wire s.params with
  | some q =>
    obtain ⟨op, pl⟩ := q
    obtain ⟨hu, hc⟩ := exec_operation_next hi h
    obtain ⟨r, he, hx⟩ := exec_operation_ends hu hc hi
    rw [h] at he; injection he with he; subst he
    obtain ⟨c, _, rfl⟩ | ⟨_, hx⟩ := hx
    · exact hu
    · cases hx <;> exact hu
  | none =>
    cases i <;> simp only [Instr.wire, reduceCtorEq] at hi
    case upload raw idx exp longer mode rep =>
      obtain ⟨hu, hc, rfl⟩ := serveConnected_next (show serveConnected _ s = _ from h)
      simp only [deliver, uploadBody]; split
      · exact hu
      · rfl
    case validate n => obtain ⟨hu, hc, rfl⟩ := serveConnected_next (show serveConnected _ s = _ from h); rfl
    case pollstat r => obtain ⟨hu, hc, rfl⟩ := serveConnected_next (show serveConnected _ s = _ from h); rfl
    case encode c2 c3 pl ro rp us =>
      simp only [exec, execEncode, accept] at h
      split at h
      · cases h
      · rename_i hu
        injection h with h; subst h
        exact Option.not_isSome_iff_eq_none.1 hu
    case decode p =>
      simp only [exec, execDecode, accept] at h
      split at h
      · cases h
      · rename_i hu
        split at h <;> (injection h with h; subst h; exact Option.not_isSome_iff_eq_none.1 hu)
    case connect =>
      simp only [exec, execConnect, accept] at h
      split at h
      · cases h
      · rename_i hu
        split at h
        · cases h
        · injection h with h; subst h
          simp only [connectBody]
          cases openAnswer s <;> exact Option.not_isSome_iff_eq_none.1 hu
    case disconnect =>
      simp only [exec, execDisconnect, accept] at h
      split at h
      · cases h
      · rename_i hu
        injection h with h; subst h
        simp only [disconnectBody]
        split <;> exact Option.not_isSome_iff_eq_none.1 hu

/-- Connecting the session by hand and presenting a request, as `State.withFetchWord` does, keeps the invariant. -/
theorem withFetchWord_inv {s : State} (nbits w : Nat) (h : Inv s) : Inv (s.withFetchWord nbits w) := by
  refine ⟨⟨rfl, h.atRest.2⟩, h.paramsWf, ?_, ?_⟩ <;> simp only [State.withFetchWord, present_history, linked_history]
  · split
    · rw [h.history, ‹s.connected = true›]; rfl
    · rename_i hc; rw [replay_append _ h.history, Bool.eq_false_iff.2 hc]; rfl
  · split
    · exact h.bounded
    · rw [readsBounded, List.all_append]; simp only [Bool.and_eq_true]; exact ⟨h.bounded, rfl⟩

/-- Every way a step answers a next state: the block waits, or it serves a request of the table, or it answers a host
read, or an identity query. -/
theorem step_cases {s t : State} (h : step s = .next t) : (s.requests = [] ∧ t = s) ∨ ∃ q rest, s.requests = q :: rest ∧
   ((∃ i, q = .run i ∧ exec i {s with requests := rest} = .next t) ∨ (∃ o, t = {s with requests := rest, outcome := o}) ∨
    ∃ w, s.ustep = none ∧ t = deliver (queryIdentity w {s with requests := rest}, .ok (.identity (identityAnswer w {s with requests := rest})))) := by
  cases hq : s.requests with
  | nil => left; simp [step, nextRequest, hq] at h; exact ⟨rfl, h.symm⟩
  | cons q rest =>
    right; refine ⟨q, rest, rfl, ?_⟩
    simp only [step, nextRequest, hq] at h
    cases q with
    | run i => exact .inl ⟨i, rfl, h⟩
    | readSnap f =>
      simp only [serve, readSnapshot, accept] at h
      split at h; cases h
      split at h
      · injection h with h; exact .inr (.inl ⟨_, h.symm⟩)
      · cases h
    | identity w =>
      simp only [serve, askIdentity, accept] at h
      split at h; cases h
      rename_i hu
      injection h with h; exact .inr (.inr ⟨w, by simpa using hu, h.symm⟩)
    | unknown m => cases h

end Sys2Proof.Machine
end

