-- ==== Sys2Proof/Tests/Slice0.lean ====
section
/-! SUPPORT. The model's own tests. Expected values are the vectors of spec/95_test_vectors.md (S, T and P numbers in the
names and docstrings) or are worked by hand from the rule named; concrete command bytes are those of the reference
binding, which is not normative. The second half shows, for every obligation that has hypotheses, a concrete state and
operands that meet them. -/

namespace Sys2Proof.Tests

open Sys2Proof Sys2Proof.Machine Sys2Proof.Claims

/-! Small states. -/

/-- A connected block under the reference binding with `SEQ = 9` and the given coming answers. -/
def demo (writes : List WriteAnswer) (reads : List ReadAnswer) : State :=
  { State.construct ⟨true, false⟩ referenceBinding with
    connected := true, seq := 9, env := { opens := [], writes := writes, reads := reads, identities := [], cancels := [] } }

/-- The same with `ACK_REPLY = 0`. -/
def quiet (writes : List WriteAnswer) (reads : List ReadAnswer) : State :=
  { demo writes reads with params := { referenceBinding with ackReply := false } }

/-- The same with a cancel input and its coming samples. -/
def cancellable (writes : List WriteAnswer) (reads : List ReadAnswer) (cancels : List Bool) : State :=
  { demo writes reads with
    params := { referenceBinding with hasCancel := true },
    env := { opens := [], writes := writes, reads := reads, identities := [], cancels := cancels } }

/-- A block just constructed whose next `open` is answered as given. -/
def fresh (answer : OpenAnswer) : State :=
  { State.construct ⟨false, false⟩ referenceBinding with
    env := { opens := [answer], writes := [], reads := [], identities := [], cancels := [] } }

/-- The state of an outcome. -/
def after : Host.Outcome State Fault Refusal → Option State
  | .next s => some s
  | _ => none

/-- The refusal of an outcome. -/
def refusal : Host.Outcome State Fault Refusal → Option Refusal
  | .refused r => some r
  | _ => none

/-- How a request ends, what it writes, how many reads it makes, and `SEQ` after it. -/
def observe (i : Instr) (s : State) : Option (Option (Except Ending Value) × List (List Byte) × Nat × Byte) :=
  (after (exec i s)).map fun t => (t.outcome, packetsWritten t.history, readsMade t.history, t.seq)

/-- How a request ends and the snapshot after it. -/
def observeSnap (i : Instr) (s : State) : Option (Option (Except Ending Value) × Snapshot) :=
  (after (exec i s)).map fun t => (t.outcome, t.snap)

/-- A query on `demo` whose one packet has `n` bytes. -/
def ask (i : Instr) (n : Nat) (response : List Byte) : Option (Option (Except Ending Value) × Snapshot) :=
  observeSnap i (demo [.count n] [.bytes response])

/-! Well-formedness: an ill-formed term for each check, which the check refuses. -/

theorem test_wf_numbers :
    WellFormed (.insrcSet 4) = false ∧ WellFormed (.imgload 256) = false ∧ WellFormed (.imgtimeGet 256 0) = false ∧
    WellFormed (.imgtimeGet 0 256) = false ∧ WellFormed (.trigmodeSet 5) = false ∧
    WellFormed (.trigout1Set true 256 0) = false ∧ WellFormed (.trigout1Set true 0 256) = false ∧
    WellFormed (.patsrcSet 1) = false ∧ WellFormed (.exposureSet 4294967296 false) = false ∧
    WellFormed (.lutofsSet 256) = false ∧ WellFormed (.mboxOpen 0) = false ∧ WellFormed (.mboxOpen 4) = false ∧
    WellFormed (.gpioCfg 256 true true true true) = false ∧ WellFormed (.gpioGet 256) = false := by decide

theorem test_wf_counts :
    WellFormed (.lutctlSet 0 true 1 1) = false ∧ WellFormed (.lutctlSet 257 true 1 1) = false ∧
    WellFormed (.lutctlSet 1 true 0 1) = false ∧ WellFormed (.lutctlSet 1 true 1 0) = false := by decide

theorem test_wf_led :
    WellFormed (.ledcurSet 256 0 0 false) = false ∧ WellFormed (.ledcurSet 0 256 0 false) = false ∧
    WellFormed (.ledcurSet 0 0 256 false) = false ∧ WellFormed (.ledcurSet 1 245 238 true) = false ∧
    WellFormed (.ledcurSet 1 245 238 false) = true := by decide

theorem test_wf_bytes :
    WellFormed (.idxlistWr [256]) = false ∧ WellFormed (.patlutWr [256]) = false ∧
    WellFormed (.encode 256 0 [] true true true) = false ∧ WellFormed (.encode 0 256 [] true true true) = false ∧
    WellFormed (.encode 0 0 [256] true true true) = false := by decide

theorem test_wf_upload :
    WellFormed (.upload [1, 2] [0] 0 true 0 true) = false ∧ WellFormed (.upload [] [0] 0 true 0 true) = false ∧
    WellFormed (.upload [1, 2, 3] [] 0 true 0 true) = false ∧ WellFormed (.upload [1, 2, 3] [0, 0] 0 true 0 true) = false ∧
    WellFormed (.upload [1, 2, 256] [0] 0 true 0 true) = false ∧ WellFormed (.upload [1, 2, 3] [256] 0 true 0 true) = false ∧
    WellFormed (.upload [1, 2, 3] [0] 4294967296 true 0 true) = false ∧
    WellFormed (.upload [1, 2, 3] [0] 0 true 5 true) = false ∧ WellFormed (.upload [1, 2, 3] [0] 0 true 4 true) = true := by
  decide

/-- One byte more than the length field can tell the truth about, whatever the bytes. -/
theorem test_wf_length (l : List Nat) (h : l.length = 65534) :
    WellFormed (.idxlistWr l) = false ∧ WellFormed (.patlutWr l) = false ∧
    WellFormed (.encode 0 0 l true true true) = false := by
  simp [WellFormed, h]

/-! Packets written out from 30_encoding.md R80, R90 and R100 and the payload rules; every operation decodes to itself. -/

theorem test_decode_status :
    decodePacket referenceBinding [0x00, 0xC0, 0x00, 0x02, 0x00, 0x0A, 0x1A] = .ok .hwstatGet ∧
    decodePacket referenceBinding [0x00, 0xC0, 0x00, 0x02, 0x00, 0x0B, 0x1A] = .ok .sysstatGet ∧
    decodePacket referenceBinding [0x00, 0xC0, 0x00, 0x02, 0x00, 0x0C, 0x1A] = .ok .mainstatGet ∧
    decodePacket referenceBinding [0x00, 0x00, 0x00, 0x03, 0x00, 0x02, 0x08, 0x01] = .ok .swreset ∧
    decodePacket referenceBinding [0x00, 0x00, 0x00, 0x03, 0x00, 0x00, 0x02, 0x01] = .ok (.standbySet true) ∧
    decodePacket referenceBinding [0x00, 0x00, 0x00, 0x03, 0x00, 0x25, 0x1A, 0x01] = .ok (.bufswap true) ∧
    decodePacket referenceBinding [0x00, 0x00, 0x00, 0x03, 0x00, 0x0A, 0x10, 0x00] = .ok (.buffreezeSet false) ∧
    decodePacket referenceBinding [0x00, 0x00, 0x00, 0x03, 0x00, 0x26, 0x1A, 0x01] = .ok (.bufwrdisSet true) ∧
    decodePacket referenceBinding [0x00, 0xC0, 0x00, 0x02, 0x00, 0x27, 0x1A] = .ok .curbufGet := by decide

theorem test_decode_source :
    decodePacket referenceBinding [0x00, 0xC0, 0x00, 0x02, 0x00, 0x00, 0x1A] = .ok .insrcGet ∧
    decodePacket referenceBinding [0x00, 0x00, 0x00, 0x03, 0x00, 0x00, 0x1A, 0x02] = .ok (.insrcSet 2) ∧
    decodePacket referenceBinding [0x00, 0x00, 0x00, 0x03, 0x00, 0x39, 0x1A, 0x05] = .ok (.imgload 5) ∧
    decodePacket referenceBinding [0x00, 0xC0, 0x00, 0x04, 0x00, 0x3A, 0x1A, 0x00, 0x01] = .ok (.imgtimeGet 0 1) ∧
    decodePacket referenceBinding [0x00, 0xC0, 0x00, 0x02, 0x00, 0x1B, 0x1A] = .ok .dispmodeGet ∧
    decodePacket referenceBinding [0x00, 0x00, 0x00, 0x03, 0x00, 0x1B, 0x1A, 0x01] = .ok (.dispmodeSet true) := by decide

theorem test_decode_pattern :
    decodePacket referenceBinding [0x00, 0x40, 0xFD, 0x03, 0x00, 0x23, 0x1A, 0x01] = .ok (.trigmodeSet 1) ∧
    decodePacket referenceBinding [0x00, 0x40, 0x01, 0x05, 0x00, 0x1D, 0x1A, 0x02, 0xBB, 0xCC] = .ok (.trigout1Set true 0xBB 0xCC) ∧
    decodePacket referenceBinding [0x00, 0x40, 0xFA, 0x03, 0x00, 0x22, 0x1A, 0x03] = .ok (.patsrcSet 3) ∧
    decodePacket referenceBinding [0x00, 0x00, 0x00, 0x03, 0x00, 0x24, 0x1A, 0x02] = .ok (.patseqCtl .start) ∧
    decodePacket referenceBinding [0x00, 0x40, 0xFC, 0x0A, 0x00, 0x29, 0x1A, 0xA0, 0x86, 0x01, 0x00, 0x86, 0x87, 0x01, 0x00] =
      .ok (.exposureSet 100000 true) ∧
    decodePacket referenceBinding [0x00, 0x40, 0xFB, 0x06, 0x00, 0x31, 0x1A, 0x01, 0x01, 0x01, 0x00] = .ok (.lutctlSet 2 true 2 1) ∧
    decodePacket referenceBinding [0x00, 0x40, 0xFF, 0x03, 0x00, 0x32, 0x1A, 0x00] = .ok (.lutofsSet 0) ∧
    decodePacket referenceBinding [0x00, 0x40, 0xFE, 0x03, 0x00, 0x33, 0x1A, 0x02] = .ok (.mboxOpen 2) ∧
    decodePacket referenceBinding [0x00, 0x40, 0x01, 0x03, 0x00, 0x33, 0x1A, 0x00] = .ok .mboxClose ∧
    decodePacket referenceBinding [0x00, 0x00, 0x00, 0x03, 0x00, 0x1A, 0x1A, 0x00] = .ok .validStart ∧
    decodePacket referenceBinding [0x00, 0xC0, 0x00, 0x02, 0x00, 0x1A, 0x1A] = .ok .validGet := by decide

/-- IDXLIST_WR and PATLUT_WR have the same command bytes under the reference binding: a packet of theirs may stand for
either and names neither (30_encoding.md R99). Under a binding that tells them apart each decodes to itself. -/
theorem test_decode_mailbox_writes :
    let packet : List Byte := [0x00, 0x40, 0x04, 0x05, 0x00, 0x34, 0x1A, 0x00, 0x21, 0x04]
    let apart : Params := { referenceBinding with codes := referenceBinding.codes.set 24 ⟨0x1A, 0x35⟩ }
    candidates referenceBinding packet = [.idxlistWr [0x00, 0x21, 0x04], .patlutWr [0x00, 0x21, 0x04]] ∧
    decodePacket referenceBinding packet = .error .ambiguous ∧
    decodePacket apart packet = .ok (.patlutWr [0x00, 0x21, 0x04]) ∧
    decodePacket apart [0x00, 0x40, 0x04, 0x03, 0x00, 0x35, 0x1A, 0x05] = .ok (.idxlistWr [5]) := by decide

theorem test_decode_led_gpio :
    decodePacket referenceBinding [0x00, 0xC0, 0x00, 0x02, 0x00, 0x07, 0x1A] = .ok .ledenGet ∧
    decodePacket referenceBinding [0x00, 0xC0, 0x00, 0x02, 0x00, 0x05, 0x1A] = .ok .ledpolGet ∧
    decodePacket referenceBinding [0x00, 0xC0, 0x00, 0x02, 0x00, 0x01, 0x0B] = .ok .ledcurGet ∧
    decodePacket referenceBinding [0x00, 0x00, 0x00, 0x05, 0x00, 0x01, 0x0B, 0x9B, 0x87, 0x7D] = .ok (.ledcurSet 100 120 130 false) ∧
    Instr.ledcurSet 100 120 130 true ∈ candidates referenceBinding [0x00, 0x00, 0x00, 0x05, 0x00, 0x01, 0x0B, 0x9B, 0x87, 0x7D] ∧
    decodePacket referenceBinding [0x00, 0x00, 0x00, 0x04, 0x00, 0x38, 0x1A, 0x0C, 0x28] = .ok (.gpioCfg 12 true false true false) ∧
    decodePacket referenceBinding [0x00, 0xC0, 0x00, 0x03, 0x00, 0x38, 0x1A, 0x0C] = .ok (.gpioGet 12) := by decide

/-- The framer's packets (T2, T4) and the rows without a packet of their own. -/
theorem test_encode_framer_and_procedures :
    encode referenceBinding 0xFF (.encode 0x1A 0x23 [1] false true true) = some [0x00, 0x40, 0xFF, 0x03, 0x00, 0x23, 0x1A, 0x01] ∧
    encode referenceBinding 7 (.encode 0x11A 0x20A [0x1FF] true false false) = some [0x00, 0x80, 0x00, 0x03, 0x00, 0x0A, 0x1A, 0xFF] ∧
    encode referenceBinding 7 (.decode []) = none ∧ encode referenceBinding 7 .connect = none ∧
    encode referenceBinding 7 .disconnect = none ∧ encode referenceBinding 7 (.upload [] [] 0 true 0 true) = none ∧
    encode referenceBinding 7 (.validate 1) = none ∧ encode referenceBinding 7 (.pollstat none) = none := by decide

/-- Payload corners: T53, T54, T75, T82, T83, T85, T86, T126, T130. -/
theorem test_encode_corners :
    encode referenceBinding 0 (.insrcSet 5) = some [0x00, 0x00, 0x00, 0x03, 0x00, 0x00, 0x1A, 0x01] ∧
    encode referenceBinding 0 (.imgload 256) = some [0x00, 0x00, 0x00, 0x03, 0x00, 0x39, 0x1A, 0x00] ∧
    encode referenceBinding 0 (.trigout1Set false 0x1BB 0) = some [0x00, 0x40, 0x00, 0x05, 0x00, 0x1D, 0x1A, 0x00, 0xBB, 0x00] ∧
    encode referenceBinding 5 (.exposureSet 0 true) =
      some [0x00, 0x40, 0x05, 0x0A, 0x00, 0x29, 0x1A, 0x00, 0x00, 0x00, 0x00, 0xE6, 0x00, 0x00, 0x00] ∧
    encode referenceBinding 5 (.exposureSet 4294967295 true) =
      some [0x00, 0x40, 0x05, 0x0A, 0x00, 0x29, 0x1A, 0xFF, 0xFF, 0xFF, 0xFF, 0xE5, 0x00, 0x00, 0x00] ∧
    encode referenceBinding 5 (.lutctlSet 256 false 256 256) = some [0x00, 0x40, 0x05, 0x06, 0x00, 0x31, 0x1A, 0xFF, 0x00, 0xFF, 0xFF] ∧
    encode referenceBinding 5 (.lutctlSet 0 false 257 1) = some [0x00, 0x40, 0x05, 0x06, 0x00, 0x31, 0x1A, 0xFF, 0x00, 0x00, 0x00] ∧
    encode referenceBinding 5 (.ledcurSet 0 0 0 true) = some [0x00, 0x00, 0x00, 0x05, 0x00, 0x01, 0x0B, 0xFF, 0xFF, 0xFF] ∧
    encode referenceBinding 5 (.gpioCfg 0 true true true true) = some [0x00, 0x00, 0x00, 0x04, 0x00, 0x38, 0x1A, 0x00, 0xB8] ∧
    encode referenceBinding 5 (.gpioCfg 300 false false false false) = some [0x00, 0x00, 0x00, 0x04, 0x00, 0x38, 0x1A, 0x2C, 0x00] := by
  decide

/-- The opcode table's numbering: bytes 0 to 2 are one number, byte 0 most significant, byte 3 is bits 31..24. A packet
that names no operation is ENCODE's, a byte string that is no packet is an operand of DECODE, and one whose first byte
is not the report id is not of the table. -/
theorem test_table_word :
    decodeWordWith referenceBinding 56 0x1A0A000200C000 = some .hwstatGet ∧
    decodeWordWith referenceBinding 64 0x011A230003004000 = some (.trigmodeSet 1) ∧
    decodeWordWith referenceBinding 64 0x01EEEE0003004005 = some (.encode 0xEE 0xEE [1] false true true) ∧
    decodeWordWith referenceBinding 24 0x00C000 = some (.decode [0x00, 0xC0, 0x00, 0x00, 0x00]) ∧
    decodeWordWith referenceBinding 24 0x01C000 = none := by decide

/-- A placed table word runs at the next step, from reset (log 14): a bare word of the opcode table is a packet cut short,
which DECODE answers with FrameError (short) (T12). -/
theorem test_placed_word_runs_from_reset :
    ∃ t, step (State.reset.withFetchWord 24 0x00C000) = .next t ∧ t.outcome = some (.error (.frameError .short)) :=
  ⟨_, rfl, rfl⟩
/-- A placed operation runs although the block was never connected by a request, and although a procedure was in progress. -/
theorem test_placed_operation_runs :
    (after (step (State.withFetchWord
      { demo [.count 7] [.bytes [1, 2, 3, 4, 0xFF]] with connected := false, ustep := some 3 } 56 0x1A0A000200C000))).map
      (fun t => (t.outcome, t.connected, t.snap.hw)) = some (some (.ok (.byte 0xFF)), true, some 0xFF) := by decide

/-! One test or two for each request. -/

theorem test_hwstat_T31 :
    ask .hwstatGet 7 [1, 2, 3, 4, 0xFF, 0x77] = some (some (.ok (.byte 0xFF)), { Snapshot.absent with hw := some 0xFF }) := by
  decide
/-- T19, T20: a failed read and a short response leave the snapshot. -/
theorem test_hwstat_failures :
    (observeSnap .hwstatGet { demo [.count 7] [.failure] with snap := { Snapshot.absent with hw := some 1 } } =
      some (some (.error (.transportError .read)), { Snapshot.absent with hw := some 1 })) ∧
    (observeSnap .hwstatGet
        { demo [.count 7] [.bytes [0xAA, 0xBB, 0xCC, 0xDD]] with snap := { Snapshot.absent with hw := some 1 } } =
      some (some (.error .responseUnderrun), { Snapshot.absent with hw := some 1 })) := by decide
theorem test_sysstat_T32 :
    ask .sysstatGet 7 [1, 2, 3, 4, 0x00] = some (some (.ok (.byte 0)), { Snapshot.absent with sys := some 0 }) := by decide
theorem test_mainstat_T33 :
    ask .mainstatGet 7 [1, 2, 3, 4, 0x0C] = some (some (.ok (.byte 0x0C)), { Snapshot.absent with main := some 0x0C }) := by
  decide
theorem test_swreset_T34 :
    observe .swreset (demo [.count 8] []) = some (some (.ok .none), [[0x00, 0x00, 0x00, 0x03, 0x00, 0x02, 0x08, 0x01]], 0, 9) := by
  decide
theorem test_standby_T35 :
    observe (.standbySet false) (demo [.count 8] []) =
      some (some (.ok .none), [[0x00, 0x00, 0x00, 0x03, 0x00, 0x00, 0x02, 0x00]], 0, 9) := by decide
theorem test_bufswap_T36 :
    observe (.bufswap true) (demo [.count 8] []) =
      some (some (.ok .none), [[0x00, 0x00, 0x00, 0x03, 0x00, 0x25, 0x1A, 0x01]], 0, 9) := by decide
theorem test_buffreeze_T37 :
    observe (.buffreezeSet false) (demo [.count 8] []) =
      some (some (.ok .none), [[0x00, 0x00, 0x00, 0x03, 0x00, 0x0A, 0x10, 0x00]], 0, 9) := by decide
theorem test_bufwrdis_T38 :
    observe (.bufwrdisSet true) (demo [.count 8] []) =
      some (some (.ok .none), [[0x00, 0x00, 0x00, 0x03, 0x00, 0x26, 0x1A, 0x01]], 0, 9) := by decide
theorem test_curbuf_T40 : ask .curbufGet 7 [1, 2, 3, 4, 0xFE] = some (some (.ok (.bit 0)), Snapshot.absent) := by decide
theorem test_insrc_get_T51 :
    ask .insrcGet 7 [1, 2, 3, 4, 0x0B] = some (some (.ok (.source 3)), { Snapshot.absent with insrc := some 3 }) := by decide
/-- T53: narrowed, no error, the snapshot untouched. -/
theorem test_insrc_set_T53 :
    observe (.insrcSet 5) (demo [.count 8] []) =
      some (some (.ok .none), [[0x00, 0x00, 0x00, 0x03, 0x00, 0x00, 0x1A, 0x01]], 0, 9) ∧
    observeSnap (.insrcSet 5) (demo [.count 8] []) = some (some (.ok .none), Snapshot.absent) := by decide
theorem test_imgload_T54 :
    observe (.imgload 256) (demo [.count 8] []) =
      some (some (.ok .none), [[0x00, 0x00, 0x00, 0x03, 0x00, 0x39, 0x1A, 0x00]], 0, 9) := by decide
/-- T55 (S6), T58. -/
theorem test_imgtime :
    ask (.imgtimeGet 0 1) 9 [1, 2, 3, 4, 0x00, 0x49, 0x02] = some (some (.ok (.time 8)), Snapshot.absent) ∧
    ask (.imgtimeGet 0 1) 9 [1, 2, 3, 4, 0xFF, 0xFF, 0xFF] = some (some (.ok (.time 898)), Snapshot.absent) := by decide
/-- T56, T57, T59: just below and at the divisor, and one byte short. -/
theorem test_imgtime_edges :
    ask (.imgtimeGet 0 1) 9 [1, 2, 3, 4, 0xEA, 0x48, 0x00] = some (some (.ok (.time 0)), Snapshot.absent) ∧
    ask (.imgtimeGet 0 1) 9 [1, 2, 3, 4, 0xEB, 0x48, 0x00] = some (some (.ok (.time 1)), Snapshot.absent) ∧
    ask (.imgtimeGet 0 1) 9 [1, 2, 3, 4, 0x00, 0x49] = some (some (.error .responseUnderrun), Snapshot.absent) := by decide
theorem test_dispmode_get_T60 :
    ask .dispmodeGet 7 [1, 2, 3, 4, 0x01] = some (some (.ok (.bit 1)), { Snapshot.absent with dispmode := some 1 }) := by decide
theorem test_dispmode_set_T61 :
    observe (.dispmodeSet true) (demo [.count 8] []) =
      some (some (.ok .none), [[0x00, 0x00, 0x00, 0x03, 0x00, 0x1B, 0x1A, 0x01]], 0, 9) := by decide
/-- T21, T22: no rollback of `SEQ`; the reply is discarded unexamined. -/
theorem test_trigmode_T21_T22 :
    observe (.trigmodeSet 1) (demo [.failure] []) =
      some (some (.error (.transportError .write)), [[0x00, 0x40, 0x09, 0x03, 0x00, 0x23, 0x1A, 0x01]], 0, 10) ∧
    observe (.trigmodeSet 1) (demo [.count 8] [.bytes [0x20, 0x09, 0x00, 0x00]]) =
      some (some (.ok .none), [[0x00, 0x40, 0x09, 0x03, 0x00, 0x23, 0x1A, 0x01]], 1, 10) :=
  ⟨by decide, by decide⟩
/-- T23, T73: no reply asked for with `ACK_REPLY = 0`; the check is on the number. -/
theorem test_trigmode_T23_T73 :
    observe (.trigmodeSet 1) (quiet [.count 8] []) =
      some (some (.ok .none), [[0x00, 0x00, 0x09, 0x03, 0x00, 0x23, 0x1A, 0x01]], 0, 10) ∧
    observe (.trigmodeSet 260) (demo [] []) = some (some (.error (.configurationError .triggerMode)), [], 0, 9) :=
  ⟨by decide, by decide⟩
theorem test_trigout1_T74 :
    observe (.trigout1Set true 0xBB 0xCC) (quiet [.count 10] []) =
      some (some (.ok .none), [[0x00, 0x00, 0x09, 0x05, 0x00, 0x1D, 0x1A, 0x02, 0xBB, 0xCC]], 0, 10) := by decide
/-- T76, T77. -/
theorem test_patsrc :
    observe (.patsrcSet 3) (quiet [.count 8] []) =
      some (some (.ok .none), [[0x00, 0x00, 0x09, 0x03, 0x00, 0x22, 0x1A, 0x03]], 0, 10) ∧
    observe (.patsrcSet 2) (quiet [] []) = some (some (.error (.configurationError .patternInputSource)), [], 0, 9) :=
  ⟨by decide, by decide⟩
theorem test_patseq_T78 :
    observe (.patseqCtl .start) (demo [.count 8] []) =
      some (some (.ok .none), [[0x00, 0x00, 0x00, 0x03, 0x00, 0x24, 0x1A, 0x02]], 0, 9) := by decide
theorem test_exposure_T81 :
    observe (.exposureSet 1000000 true) (quiet [.count 15] []) =
      some (some (.ok .none), [[0x00, 0x00, 0x09, 0x0A, 0x00, 0x29, 0x1A, 0x40, 0x42, 0x0F, 0x00, 0x26, 0x43, 0x0F, 0x00]], 0, 10) := by
  decide
theorem test_lutctl_T86 :
    observe (.lutctlSet 0 false 257 1) (quiet [.count 11] []) =
      some (some (.ok .none), [[0x00, 0x00, 0x09, 0x06, 0x00, 0x31, 0x1A, 0xFF, 0x00, 0x00, 0x00]], 0, 10) := by decide
theorem test_lutofs_T87 :
    observe (.lutofsSet 0x127) (quiet [.count 8] []) =
      some (some (.ok .none), [[0x00, 0x00, 0x09, 0x03, 0x00, 0x32, 0x1A, 0x27]], 0, 10) := by decide
/-- T88, T89. -/
theorem test_mbox_open :
    observe (.mboxOpen 3) (quiet [.count 8] []) =
      some (some (.ok .none), [[0x00, 0x00, 0x09, 0x03, 0x00, 0x33, 0x1A, 0x03]], 0, 10) ∧
    observe (.mboxOpen 4) (quiet [] []) = some (some (.error (.configurationError .mailboxFunction)), [], 0, 9) :=
  ⟨by decide, by decide⟩
theorem test_mbox_close_T90 :
    observe .mboxClose (quiet [.count 8] []) =
      some (some (.ok .none), [[0x00, 0x00, 0x09, 0x03, 0x00, 0x33, 0x1A, 0x00]], 0, 10) := by decide
theorem test_idxlist_T92 :
    observe (.idxlistWr []) (quiet [.count 7] []) =
      some (some (.ok .none), [[0x00, 0x00, 0x09, 0x02, 0x00, 0x34, 0x1A]], 0, 10) := by decide
theorem test_patlut_T94 :
    observe (.patlutWr [1, 2, 3, 4]) (quiet [.count 11] []) =
      some (some (.ok .none), [[0x00, 0x00, 0x09, 0x06, 0x00, 0x34, 0x1A, 0x01, 0x02, 0x03, 0x04]], 0, 10) := by decide
theorem test_leden_T110 : ask .ledenGet 7 [1, 2, 3, 4, 0x0F] = some (some (.ok (.byte 0x0F)), Snapshot.absent) := by decide
theorem test_ledpol_T111 : ask .ledpolGet 7 [1, 2, 3, 4, 0x01] = some (some (.ok (.byte 0x01)), Snapshot.absent) := by decide
/-- T112, T114. -/
theorem test_ledcur_get :
    ask .ledcurGet 7 [1, 2, 3, 4, 0x9B, 0x87, 0x7D] = some (some (.ok (.currents 100 120 130)),
      { Snapshot.absent with ledR := some 100, ledG := some 120, ledB := some 130 }) ∧
    ask .ledcurGet 7 [1, 2, 3, 4, 0x9B, 0x87] = some (some (.error .responseUnderrun), Snapshot.absent) := by decide
/-- T124, T127, and the exact limit and one unit of red above it (T120, T122). -/
theorem test_ledcur_set :
    observe (.ledcurSet 100 120 130 true) (demo [.count 10] []) =
      some (some (.ok .none), [[0x00, 0x00, 0x00, 0x05, 0x00, 0x01, 0x0B, 0x9B, 0x87, 0x7D]], 0, 9) ∧
    observe (.ledcurSet 200 200 200 true) (demo [] []) = some (some (.error (.configurationError .ledCurrent)), [], 0, 9) ∧
    checkLedCurrent 0 245 238 true = .pass ∧ checkLedCurrent 1 245 238 true = .rejectTotal :=
  ⟨by decide, by decide, by decide, by decide⟩
/-- T115 to T123. -/
theorem test_led_guard :
    checkLedCurrent 255 255 255 true = .rejectTotal ∧ checkLedCurrent 255 255 255 false = .pass ∧
    checkLedCurrent 0 0 0 true = .pass ∧ checkLedCurrent 160 160 160 true = .rejectTotal ∧
    checkLedCurrent 159 160 160 true = .rejectTotal ∧ checkLedCurrent 3 227 255 true = .pass ∧
    checkLedCurrent 256 0 0 false = .rejectRange := by decide
theorem test_gpio_cfg_T129 :
    observe (.gpioCfg 12 true false true false) (demo [.count 9] []) =
      some (some (.ok .none), [[0x00, 0x00, 0x00, 0x04, 0x00, 0x38, 0x1A, 0x0C, 0x28]], 0, 9) := by decide
/-- T131, T132. -/
theorem test_gpio_get :
    ask (.gpioGet 12) 8 [1, 2, 3, 4, 0x0C, 0x01] = some (some (.ok (.byte 0x01)), Snapshot.absent) ∧
    ask (.gpioGet 12) 8 [1, 2, 3, 4, 0x0C] = some (some (.error .responseUnderrun), Snapshot.absent) := by decide
theorem test_valid_start_T95 :
    observe .validStart (demo [.count 8] []) =
      some (some (.ok .none), [[0x00, 0x00, 0x00, 0x03, 0x00, 0x1A, 0x1A, 0x00]], 0, 9) := by decide
/-- T96, T97. -/
theorem test_valid_get :
    ask .validGet 7 [1, 2, 3, 4, 0x81] = some (some (.ok (.validation true 0x01 0x81)), Snapshot.absent) ∧
    ask .validGet 7 [1, 2, 3, 4, 0x7F] = some (some (.ok (.validation false 0x1F 0x7F)), Snapshot.absent) := by decide
/-- T98. -/
theorem test_valid_fault_names : namedFaults 0x12 = [.lutNumbersInvalid, .deltaUnder230] := by decide
/-- T2, T4. -/
theorem test_encode :
    observe (.encode 0x1A 0x23 [1] false true true) { demo [] [] with seq := 0xFF } =
      some (some (.ok (.packet [0x00, 0x40, 0xFF, 0x03, 0x00, 0x23, 0x1A, 0x01])), [], 0, 0) ∧
    observe (.encode 0x11A 0x20A [0x1FF] true false false) (fresh .handle) =
      some (some (.ok (.packet [0x00, 0x80, 0x00, 0x03, 0x00, 0x0A, 0x1A, 0xFF])), [], 0, 0) :=
  ⟨by decide, by decide⟩
/-- T11 to T15. -/
theorem test_decode :
    observe (.decode [0x00, 0x7F, 0x05, 0x03, 0x00, 0x23, 0x1A, 0x01]) (demo [] []) =
      some (some (.ok (.frame ⟨false, true, 5, 0x23, 0x1A, [0x01]⟩)), [], 0, 9) ∧
    decodeFrame [0x00, 0xC0, 0x00, 0x02, 0x00, 0x0A] = .error .short ∧
    decodeFrame [0x01, 0xC0, 0x00, 0x02, 0x00, 0x0A, 0x1A] = .error .reportid ∧
    decodeFrame [0x00, 0xC0, 0x00, 0x01, 0x00, 0x0A, 0x1A] = .error .length ∧
    decodeFrame [0x00, 0xC0, 0x00, 0x03, 0x00, 0x0A, 0x1A] = .error .length := by decide
/-- T140, T141, T142. -/
theorem test_connect :
    (after (exec .connect (fresh .handle))).map (fun t => (t.outcome, t.connected, t.history)) =
      some (some (.ok .none), true, [.opened 0x0451 0x6401 .handle]) ∧
    (after (exec .connect (fresh .failure))).map (fun t => (t.outcome, t.connected, t.history)) =
      some (some (.error (.transportError .openFailed)), false, [.opened 0x0451 0x6401 .failure, .closed]) ∧
    refusal (exec .connect (demo [] [])) = some .alreadyConnected := by decide
/-- T143, T144. -/
theorem test_disconnect :
    (after (exec .disconnect (fresh .handle))).map (fun t => (t.outcome, t.connected, t.history)) =
      some (some (.ok .none), false, []) ∧
    (after (exec .disconnect (demo [] []))).map (fun t => (t.outcome, t.connected, t.history, t.seq)) =
      some (some (.ok .none), false, [.closed], 9) := by decide
/-- T149: the write of step 6 fails; `SEQ = 3 + 7`, seven writes, six reads. -/
theorem test_upload_T149 :
    (after (exec (.upload [1, 2, 3, 4, 5, 6] [0, 1] 100000 false 1 false)
        { demo [.count 8, .count 11, .count 15, .count 8, .count 8, .count 8, .failure] (List.replicate 6 (.bytes [])) with seq := 3 })).map
      (fun t => (t.outcome, (packetsWritten t.history).length, readsMade t.history, t.seq)) =
      some (some (.error (.transportError .write)), 7, 6, 10) := by decide
/-- T148: the first failing check names the cause. -/
theorem test_upload_T148 :
    observe (.upload [1, 2, 3, 4] [] 0 true 5 true) (demo [] []) =
      some (some (.error (.configurationError .sequenceShape)), [], 0, 9) := by decide
/-- S5. -/
theorem test_validate_S5 :
    (after (exec (.validate 3) (demo [.count 8, .count 7, .count 7, .count 7]
        [.bytes [0, 0, 0, 0, 0x81], .bytes [0, 0, 0, 0, 0x81], .bytes [0, 0, 0, 0, 0x00]]))).map
      (fun t => (t.outcome, (packetsWritten t.history).length, readsMade t.history, t.seq)) =
      some (some (.ok (.faults 0)), 4, 3, 9) := by decide
/-- T154: the cancel input is 1 at the top of attempt 2. -/
theorem test_validate_T154 :
    (after (exec (.validate 5) (cancellable [.count 8, .count 7] [.bytes [0, 0, 0, 0, 0x80]] [false, true]))).map
      (fun t => (t.outcome, (packetsWritten t.history).length, readsMade t.history)) =
      some (some (.error (.cancelled .validation 2)), 2, 1) := by decide
/-- T157. -/
theorem test_pollstat_T157 :
    (after (exec (.pollstat (some 10)) (demo [.count 7, .count 7, .count 7]
        [.bytes [0, 0, 0, 0, 0x01], .bytes [0, 0, 0, 0, 0x01], .bytes [0, 0, 0, 0, 0x5A]]))).map
      (fun t => (t.outcome, readsMade t.history)) = some (some (.ok (.status 1 0x01 0x01 0x5A)), 3) := by decide
/-- T158: the second read fails; the hardware byte is new, the system byte is the old one. -/
theorem test_pollstat_T158 :
    observeSnap (.pollstat none)
      { demo [.count 7, .count 7] [.bytes [0, 0, 0, 0, 0x01], .failure] with snap := { Snapshot.absent with sys := some 1 } } =
      some (some (.error (.transportError .read)), { Snapshot.absent with hw := some 1, sys := some 1 }) := by decide
/-- T17, T160: the refusals of a request. -/
theorem test_refusals :
    refusal (exec .hwstatGet (fresh .handle)) = some .notConnected ∧
    refusal (exec .hwstatGet { demo [] [] with ustep := some 3 }) = some .requestInProgress := by decide
/-- T161, and the read of a field that a query has written. -/
theorem test_host_reads :
    refusal (step { fresh .handle with requests := [.readSnap .hw] }) = some (.snapshotAbsent .hw) ∧
    (after (step { fresh .handle with requests := [.readSnap .hw], snap := { Snapshot.absent with hw := some 3 } })).map
      (fun t => (t.outcome, t.requests)) = some (some (.ok (.byte 3)), []) := by decide

/-! Witnesses: for every obligation with hypotheses, concrete states and operands that meet them, clause by clause, at the
boundary of each clause's range. -/

/-- The four cases of a query: the write refused, the read failed, the response one byte short, and just long enough. -/
abbrev QueryWitness (op : Op) (payload : List Byte) (need : Nat) : Prop :=
  let n := 7 + payload.length
  let p := queryPacket (demo [] []) op payload
  (Ready (demo [.count (n - 1)] []) ∧ writeAccepted p (demo [.count (n - 1)] []) = false) ∧
  (Ready (demo [.count n] [.failure]) ∧ writeAccepted p (demo [.count n] [.failure]) = true ∧
    readAnswer (afterWrite (demo [.count n] [.failure]) p) = .failure) ∧
  (Ready (demo [.count n] [.bytes (List.replicate (need - 1) 0xA5)]) ∧
    Answers (demo [.count n] [.bytes (List.replicate (need - 1) 0xA5)]) p (List.replicate (need - 1) 0xA5)) ∧
  (Ready (demo [.count n] [.bytes (List.replicate need 0xA5)]) ∧
    Answers (demo [.count n] [.bytes (List.replicate need 0xA5)]) p (List.replicate need 0xA5))

/-- The two cases of a class F operation. -/
abbrev FireWitness (op : Op) (payload : List Byte) : Prop :=
  let n := 7 + payload.length
  let p := firePacket (demo [] []) op payload
  (Ready (demo [.count n] []) ∧ writeAccepted p (demo [.count n] []) = true) ∧
  (Ready (demo [.failure] []) ∧ writeAccepted p (demo [.failure] []) = false)

/-- The four cases of a class A operation. -/
abbrev AckWitness (op : Op) (payload : List Byte) : Prop :=
  let n := 7 + payload.length
  let p := ackPacket (demo [] []) op payload
  (Ready (demo [.failure] []) ∧ writeAccepted p (demo [.failure] []) = false) ∧
  (Ready (quiet [.count n] []) ∧ writeAccepted (ackPacket (quiet [] []) op payload) (quiet [.count n] []) = true ∧
    (quiet [.count n] []).params.ackReply = false) ∧
  (Ready (demo [.count n] [.failure]) ∧ writeAccepted p (demo [.count n] [.failure]) = true ∧
    (demo [.count n] [.failure]).params.ackReply = true ∧
    readAnswer { afterWrite (demo [.count n] [.failure]) p with seq := 10 } = .failure) ∧
  (Ready (demo [.count n] [.bytes []]) ∧ writeAccepted p (demo [.count n] [.bytes []]) = true ∧
    (demo [.count n] [.bytes []]).params.ackReply = true ∧
    readAnswer { afterWrite (demo [.count n] [.bytes []]) p with seq := 10 } = .bytes [])

theorem witness_ResetIsConstruction : (State.construct ⟨true, true⟩ referenceBinding).params.Wf := by decide
theorem witness_StepServesTheNextRequest :
    (fresh .handle).requests = [] ∧ ({ fresh .handle with requests := [.run .connect] } : State).requests = .run .connect :: [] := by
  decide
theorem witness_StepRunsTheDecodedWord :
    decodeWordWith (demo [] []).params 56 0x1A0A000200C000 = some .hwstatGet ∧ (demo [] []).connected = true ∧
    decodeWordWith (fresh .handle).params 64 0x011A230003004000 = some (.trigmodeSet 1) ∧ (fresh .handle).connected = false := by
  decide
theorem witness_EncodeBuildsThePacket : (demo [] []).ustep = none := by decide
theorem witness_DecodeReturnsFieldsOrFrameError :
    (fresh .handle).ustep = none ∧ (List.replicate 6 (0 : Byte)).length < 7 ∧
    (let p : List Byte := [0x01, 0, 0, 2, 0, 0, 0]; 7 ≤ p.length ∧ byteAt p 0 ≠ 0x00) ∧
    (let p : List Byte := [0, 0, 0, 1, 0, 0, 0]; 7 ≤ p.length ∧ byteAt p 0 = 0x00 ∧ (byteAt p 3).toNat + 256 * (byteAt p 4).toNat < 2) ∧
    (let p : List Byte := [0, 0, 0, 3, 0, 0, 0]
     7 ≤ p.length ∧ byteAt p 0 = 0x00 ∧ p.length ≠ 5 + ((byteAt p 3).toNat + 256 * (byteAt p 4).toNat)) ∧
    (let p : List Byte := [0, 0, 0, 2, 0, 0, 0]
     7 ≤ p.length ∧ byteAt p 0 = 0x00 ∧ 2 ≤ (byteAt p 3).toNat + 256 * (byteAt p 4).toNat ∧
      p.length = 5 + ((byteAt p 3).toNat + 256 * (byteAt p 4).toNat)) := by decide
theorem witness_EncodeThenDecodeRecoversTheFields :
    (fresh .handle).ustep = none ∧ 255 < 256 ∧ 0 < 256 ∧ (∀ b ∈ [0, 255], b < 256) ∧ [0, 255].length ≤ 65533 := by decide
theorem witness_LengthFieldWrapsAbove65533 :
    (∃ p : List Byte, p.length ≤ 65533 ∧ 65533 ≤ p.length) ∧ ∃ p : List Byte, 65534 ≤ p.length :=
  ⟨⟨List.replicate 65533 0, by rw [List.length_replicate]; decide⟩, List.replicate 65534 0, by rw [List.length_replicate]⟩
theorem witness_CandidatesAreExactlyTheSenders :
    decodeFrame [0x00, 0xC0, 0x00, 0x02, 0x00, 0x0A, 0x1A] = .ok ⟨true, true, 0, 0x0A, 0x1A, []⟩ ∧
    Instr.hwstatGet ∈ candidates referenceBinding [0x00, 0xC0, 0x00, 0x02, 0x00, 0x0A, 0x1A] := by decide
theorem witness_EncodedOperationIsRecovered :
    referenceBinding.Wf ∧ WellFormed (.patsrcSet 3) = true ∧ IsOperation referenceBinding (.patsrcSet 3) ∧
    encode referenceBinding 0xFA (.patsrcSet 3) = some [0x00, 0x40, 0xFA, 0x03, 0x00, 0x22, 0x1A, 0x03] := by decide
theorem witness_OperationSendsItsEncoding :
    Ready (demo [] []) ∧ IsOperation (demo [] []).params (.trigmodeSet 4) ∧ rejection (.trigmodeSet 4) = none := by decide

theorem witness_HwstatGetStoresTheStatusByte : QueryWitness .hwstatGet [] 5 := by decide
theorem witness_SysstatAndMainstatStoreTheirByte : QueryWitness .sysstatGet [] 5 ∧ QueryWitness .mainstatGet [] 5 := by decide
theorem witness_CurbufGetReturnsBitZero : QueryWitness .curbufGet [] 5 := by decide
theorem witness_SourceAndModeQueriesStoreTheLowBits : QueryWitness .insrcGet [] 5 ∧ QueryWitness .dispmodeGet [] 5 := by decide
theorem witness_ImgtimeGetDividesTheTickCount : QueryWitness .imgtimeGet [0, 1] 7 := by decide
theorem witness_LedEnableAndPolarityReturnTheByte : QueryWitness .ledenGet [] 5 ∧ QueryWitness .ledpolGet [] 5 := by decide
theorem witness_LedcurGetInvertsTheRawBytes : QueryWitness .ledcurGet [] 7 := by decide
theorem witness_GpioGetReturnsByteFive : QueryWitness .gpioGet [12] 6 := by decide
theorem witness_ValidGetSplitsTheDataByte : QueryWitness .validGet [] 5 := by decide

theorem witness_SwresetChangesNoRegister : FireWitness .swreset [referenceBinding.swresetByte] := by decide
theorem witness_FlagWritesSendTheFlag :
    FireWitness .standbySet [flag true] ∧ FireWitness .bufswap [flag true] ∧ FireWitness .buffreezeSet [flag true] ∧
    FireWitness .bufwrdisSet [flag true] ∧ FireWitness .dispmodeSet [flag true] := by decide
theorem witness_SourceAndImageWritesNarrow : FireWitness .insrcSet [1] ∧ FireWitness .imgload [0] := by decide
theorem witness_PatseqCtlSendsTheCode : FireWitness .patseqCtl [2] ∧ FireWitness .patseqCtl [1] ∧ FireWitness .patseqCtl [0] := by
  decide
/-- Each rejecting clause alone (256 in each colour; the total 42069 in strict mode), and the exact limit 42000. -/
theorem witness_LedcurSetIsGuarded :
    256 > 255 ∧ (¬ (1 > 255) ∧ ¬ (245 > 255) ∧ ¬ (238 > 255) ∧ 69 * 1 + 71 * 245 + 63 * 238 + 9611 > 42000) ∧
    (0 ≤ 255 ∧ 245 ≤ 255 ∧ 238 ≤ 255 ∧ 69 * 0 + 71 * 245 + 63 * 238 + 9611 = 42000) ∧
    FireWitness .ledcurSet [255, 10, 17] := by decide
theorem witness_GpioCfgPacksItsFlags : FireWitness .gpioCfg [12, 0x28] := by decide
theorem witness_ValidStartSendsItsPayload : FireWitness .validStart [0] := by decide

theorem witness_TrigmodeSetChecksAndSends : 5 > 4 ∧ 4 ≤ 4 ∧ AckWitness .trigmodeSet [4] := by decide
theorem witness_Trigout1SetSendsPolarityAndDelays : AckWitness .trigout1Set [2, 0xBB, 0xCC] := by decide
theorem witness_PatsrcSetChecksAndSends : (1 ≠ 0 ∧ 1 ≠ 3) ∧ (3 = 0 ∨ 3 = 3) ∧ AckWitness .patsrcSet [3] := by decide
theorem witness_ExposureSetSendsExposureAndPeriod : AckWitness .exposureSet (le32Bytes 0 ++ le32Bytes 230) := by decide
theorem witness_LutctlSetSendsCountsLessOne : AckWitness .lutctlSet [1, 1, 1, 0] := by decide
theorem witness_OffsetAndCloseSendTheirByte : AckWitness .lutofsSet [0] ∧ AckWitness .mboxClose [0] := by decide
theorem witness_MboxOpenChecksAndSends :
    (4 ≠ 1 ∧ 4 ≠ 2 ∧ 4 ≠ 3) ∧ (3 = 1 ∨ 3 = 2 ∨ 3 = 3) ∧ AckWitness .mboxOpen [3] := by decide
theorem witness_MailboxWritesSendAllBytes : AckWitness .idxlistWr [] ∧ AckWitness .patlutWr [1, 2, 3, 4] := by decide

theorem witness_ConnectOpensOrReleases :
    ((demo [] []).ustep = none ∧ (demo [] []).connected = true) ∧
    ((fresh .handle).ustep = none ∧ (fresh .handle).connected = false ∧ openAnswer (fresh .handle) = .handle) ∧
    ((fresh .failure).ustep = none ∧ (fresh .failure).connected = false ∧ openAnswer (fresh .failure) = .failure) := by decide
theorem witness_DisconnectIsAlwaysOk :
    ((demo [] []).ustep = none ∧ (demo [] []).connected = true) ∧
    ((fresh .handle).ustep = none ∧ (fresh .handle).connected = false) := by decide
theorem witness_UploadPreflightRejectsWithoutAccess :
    Ready (demo [] []) ∧ ([] : List Nat).length = 0 ∧ [1, 2, 3, 4].length % 3 ≠ 0 ∧
    ([1, 2, 3].length ≠ 0 ∧ [1, 2, 3].length % 3 = 0 ∧ ([] : List Nat).length < 1) ∧
    ([1, 2, 3].length / 3 < [0, 0].length) ∧
    (1 ≤ [0].length ∧ [0].length ≤ [1, 2, 3].length / 3 ∧ 5 > 4) := by decide

/-- The twelve write answers that accept an UPLOAD of one entry and one image index. -/
def accepting (s : State) : List WriteAnswer :=
  (uploadPackets s [1, 2, 3] [5] 100 true 4 true).map fun p => .count p.length

theorem witness_UploadSendsItsTwelvePackets :
    (let s := quiet (accepting (quiet [] [])) []
     Ready s ∧ s.params.Wf ∧ PreflightPasses [1, 2, 3] [5] 4 ∧ s.params.ackReply = false ∧
     s.env.writes = (uploadPackets s [1, 2, 3] [5] 100 true 4 true).map (fun p => .count p.length) ++ []) ∧
    (let s := demo (accepting (demo [] [])) (List.replicate 12 (.bytes []))
     Ready s ∧ s.params.Wf ∧ PreflightPasses [1, 2, 3] [5] 4 ∧ s.params.ackReply = true ∧
     s.env.writes = (uploadPackets s [1, 2, 3] [5] 100 true 4 true).map (fun p => .count p.length) ++ [] ∧
     (List.replicate 12 ([] : List Byte)).length = 12 ∧
     (∀ r ∈ List.replicate 12 ([] : List Byte), r.length ≤ s.params.rxMaxLen) ∧
     s.env.reads = (List.replicate 12 ([] : List Byte)).map .bytes ++ []) := by decide
theorem witness_UploadStopsAtTheFirstFailure :
    Ready (demo [] []) ∧ (demo [] []).params.Wf ∧ PreflightPasses [1, 2, 3] [5] 4 := by decide

/-- Responses whose data byte is busy, idle with a fault, and nominal. -/
def busyByte : List Byte := [0, 0, 0, 0, 0x80]
def idleByte : List Byte := [0, 0, 0, 0, 0x10]
def goodByte : List Byte := [0, 0, 0, 0, 0x01]

theorem witness_ValidateReturnsTheFirstIdleFaults :
    let s := cancellable [.count 8, .count 7, .count 7] [.bytes busyByte, .bytes idleByte] [false, false]
    Ready s ∧ (∀ r ∈ [busyByte] ++ [idleByte], 5 ≤ r.length ∧ r.length ≤ s.params.rxMaxLen) ∧
    (∀ r ∈ [busyByte], (byteAt r 4).getLsbD 7 = true) ∧ (byteAt idleByte 4).getLsbD 7 = false ∧ [busyByte].length < 2 ∧
    s.env.writes = .count (firePacket s .validStart s.params.validStartPayload).length :: List.replicate 2 (.count 7) ++ [] ∧
    s.env.reads = ([busyByte] ++ [idleByte]).map .bytes ++ [] ∧ QuietCancel s 2 [] := by decide
/-- With one busy attempt, and with none (`maxAttempts = 0`). -/
theorem witness_ValidateIsBounded :
    (let s := demo [.count 8, .count 7] [.bytes busyByte]
     Ready s ∧ (∀ r ∈ [busyByte], 5 ≤ r.length ∧ r.length ≤ s.params.rxMaxLen) ∧
     (∀ r ∈ [busyByte], (byteAt r 4).getLsbD 7 = true) ∧
     s.env.writes = .count (firePacket s .validStart s.params.validStartPayload).length :: List.replicate 1 (.count 7) ++ [] ∧
     s.env.reads = [busyByte].map .bytes ++ [] ∧ QuietCancel s 1 []) ∧
    (let s := demo [.count 8] []
     Ready s ∧ s.env.writes = .count (firePacket s .validStart s.params.validStartPayload).length :: List.replicate 0 (.count 7) ++ [] ∧
     s.env.reads = ([] : List (List Byte)).map .bytes ++ [] ∧ QuietCancel s 0 []) := by decide
theorem witness_PollstatStopsAtTheFirstNominalAttempt :
    let bad := (goodByte, busyByte, goodByte)
    let good := (goodByte, goodByte, busyByte)
    let s := demo (List.replicate 6 (.count 7)) (responsesOf ([bad] ++ [good]))
    Ready s ∧ (∀ a ∈ [bad] ++ [good], WholeAttempt s.params a) ∧ (∀ a ∈ [bad], ¬ Nominal s.params a) ∧
    Nominal s.params good ∧ [bad].length < (some 2 : Option Nat).getD 10 ∧
    s.env.writes = List.replicate (3 * 2) (.count 7) ++ [] ∧ s.env.reads = responsesOf ([bad] ++ [good]) ++ [] ∧
    QuietCancel s 2 [] := by decide
theorem witness_PollstatIsBounded :
    let bad := (goodByte, busyByte, goodByte)
    let s := demo (List.replicate 3 (.count 7)) (responsesOf [bad])
    Ready s ∧ 0 < (some 1 : Option Nat).getD 10 ∧ (∀ a ∈ [bad], WholeAttempt s.params a) ∧ (∀ a ∈ [bad], ¬ Nominal s.params a) ∧
    [bad].length = (some 1 : Option Nat).getD 10 ∧ s.env.writes = List.replicate (3 * 1) (.count 7) ++ [] ∧
    s.env.reads = responsesOf [bad] ++ [] ∧ QuietCancel s 1 [] := by decide
/-- What VALIDATE meets before the attempt that fails: an accepted start and one busy attempt, which leave `ws`, `rs`, `cs`. -/
abbrev ValidateAttempts (s : State) (ws : List WriteAnswer) (rs : List ReadAnswer) (cs : List Bool) : Prop :=
  Ready s ∧ (5 ≤ busyByte.length ∧ busyByte.length ≤ s.params.rxMaxLen) ∧ (byteAt busyByte 4).getLsbD 7 = true ∧
  writeAccepted (firePacket s .validStart s.params.validStartPayload) s = true ∧
  s.env.writes.tail = List.replicate 1 (.count 7) ++ ws ∧ s.env.reads = [busyByte].map .bytes ++ rs ∧ QuietCancel s 1 cs
/-- Each way VALIDATE stops: its start refused; at the top of attempts 1 and 2 the cancel input (T154); in attempt 2 the
write refused, the read failed (T153), the response one byte short. -/
theorem witness_ValidateStops :
    (Ready (demo [.failure] []) ∧ writeAccepted (firePacket (demo [] []) .validStart [0]) (demo [.failure] []) = false) ∧
    (let s := cancellable [.count 8] [] [true]
     Ready s ∧ QuietCancel s 0 [true] ∧ cancelSample s = true) ∧
    (let s := cancellable [.count 8, .count 7] [.bytes busyByte] [false, true]
     ValidateAttempts s [] [] [true] ∧ cancelSample (afterExchanges s [] 0 [] [] [true]) = true) ∧
    (let s := demo [.count 8, .count 7, .failure] [.bytes busyByte]
     ValidateAttempts s [.failure] [] [] ∧
     writeAccepted (plainQuery s.params .validGet) (afterExchanges s [] 0 [.failure] [] []) = false) ∧
    (let s := demo [.count 8, .count 7, .count 7] [.bytes busyByte, .failure]
     ValidateAttempts s [.count 7] [.failure] [] ∧
     let u := afterExchanges s [] 0 [.count 7] [.failure] []
     cancelSample u = false ∧ writeAccepted (plainQuery s.params .validGet) u = true ∧
     readAnswer (afterWrite u (plainQuery s.params .validGet)) = .failure) ∧
    (let s := demo [.count 8, .count 7, .count 7] [.bytes busyByte, .bytes [0, 0, 0, 0]]
     ValidateAttempts s [.count 7] [.bytes [0, 0, 0, 0]] [] ∧
     Answers (afterExchanges s [] 0 [.count 7] [.bytes [0, 0, 0, 0]] []) (plainQuery s.params .validGet) [0, 0, 0, 0]) := by
  decide
/-- Each way POLLSTAT stops: the bound 0; at the top of attempts 1 and 2 the cancel input; in attempt 2 the hardware query
refused, the system query unanswered after a whole hardware byte (T158), the main query short after both. -/
theorem witness_PollstatStops :
    Ready (demo [] []) ∧ (some 0 : Option Nat).getD 10 = 0 ∧
    (let s := cancellable [] [] [true]
     Ready s ∧ QuietCancel s 0 [true] ∧ cancelSample s = true) ∧
    (let bad := (goodByte, busyByte, goodByte)
     let s := cancellable (List.replicate 3 (.count 7)) (responsesOf [bad]) [false, true]
     Ready s ∧ WholeAttempt s.params bad ∧ ¬ Nominal s.params bad ∧ [bad].length < (none : Option Nat).getD 10 ∧
     QuietCancel s 1 [true] ∧ cancelSample (afterExchanges s [] 0 [] [] [true]) = true) ∧
    (let u := demo [.failure] []
     cancelSample u = false ∧ writeAccepted (plainQuery u.params .hwstatGet) u = false) ∧
    (let u := demo [.count 7, .count 7] [.bytes goodByte, .failure]
     let p := plainQuery u.params
     let u1 := afterQuery u (p .hwstatGet)
     Answers u (p .hwstatGet) goodByte ∧ writeAccepted (p .sysstatGet) u1 = true ∧
     readAnswer (afterWrite u1 (p .sysstatGet)) = .failure) ∧
    (let u := demo [.count 7, .count 7, .count 7] [.bytes goodByte, .bytes goodByte, .bytes [0, 0, 0, 0]]
     let p := plainQuery u.params
     let u1 := afterQuery u (p .hwstatGet)
     let u2 := afterQuery u1 (p .sysstatGet)
     Answers u (p .hwstatGet) goodByte ∧ Answers u1 (p .sysstatGet) goodByte ∧ Answers u2 (p .mainstatGet) [0, 0, 0, 0]) := by
  decide
theorem witness_PollingStopsAtTheFirstFailure :
    Ready (demo [] []) ∧ Ready (cancellable [.count 8, .count 7] [.bytes busyByte] [false, true]) := by decide

theorem witness_HostReadsOnlyWrittenSnapshotFields :
    (let s := { fresh .handle with requests := [.readSnap .hw], snap := { Snapshot.absent with hw := some 3 } }
     s.ustep = none ∧ s.requests = .readSnap .hw :: [] ∧ s.snap.get .hw = some (.byte 3)) ∧
    (let s := { fresh .handle with requests := [.readSnap .insrc] }
     s.ustep = none ∧ s.requests = .readSnap .insrc :: [] ∧ s.snap.get .insrc = none) := by decide
theorem witness_IdentityStringsPassThrough :
    let s := { fresh .handle with
               requests := [.identity .serial],
               env := { opens := [], writes := [], reads := [], identities := [[0x41]], cancels := [] } }
    s.ustep = none ∧ s.requests = .identity .serial :: [] ∧ s.env.identities = [0x41] :: [] := by decide
/-- Each refusal occurs. -/
theorem witness_RefusalsAreTheClosedList :
    refusal (step { fresh .handle with requests := [.unknown "FROB"] }) = some .unknownMnemonic ∧
    refusal (step { fresh .handle with requests := [.run .swreset] }) = some .notConnected ∧
    refusal (step { demo [] [] with requests := [.run .connect] }) = some .alreadyConnected ∧
    refusal (step { demo [] [] with requests := [.run .swreset], ustep := some 0 }) = some .requestInProgress ∧
    refusal (step { demo [] [] with requests := [.readSnap .ledB] }) = some (.snapshotAbsent .ledB) := by decide
theorem witness_ConfigurationErrorsAreTheClosedList :
    Ready (demo [.count 8] []) ∧ (demo [.count 8] []).params.Wf ∧ rejection (.trigmodeSet 5) = some .triggerMode ∧
    rejection .swreset = none ∧ (after (exec .swreset (demo [.count 8] []))).isSome = true := by decide
/-- A query, a class A operation whose `SEQ` advances (T21), and a POLLSTAT whose first query completed (T158). -/
theorem witness_TransportErrorLeavesTheStateDefined :
    (after (exec .hwstatGet (demo [.failure] []))).map State.outcome = some (some (.error (.transportError .write))) ∧
    (after (exec (.trigmodeSet 1) (demo [.failure] []))).map (fun t => (t.outcome, t.seq)) =
      some (some (.error (.transportError .write)), 10) ∧
    observeSnap (.pollstat none) (demo [.count 7, .count 7] [.bytes goodByte, .failure]) =
      some (some (.error (.transportError .read)), storeStatuses Snapshot.absent [goodByte]) :=
  ⟨by decide, by decide, by decide⟩
/-- Every way an operation ends occurs. -/
theorem witness_AccessCountsByOutcome :
    IsOperation (demo [] []).params .hwstatGet ∧ IsOperation (demo [] []).params (.trigmodeSet 5) ∧
    (after (exec .hwstatGet (demo [.count 7] [.bytes goodByte]))).map State.outcome = some (some (.ok (.byte 1))) ∧
    (after (exec (.trigmodeSet 5) (demo [] []))).map State.outcome = some (some (.error (.configurationError .triggerMode))) ∧
    (after (exec .hwstatGet (demo [.failure] []))).map State.outcome = some (some (.error (.transportError .write))) ∧
    (after (exec .hwstatGet (demo [.count 7] [.failure]))).map State.outcome = some (some (.error (.transportError .read))) ∧
    (after (exec .hwstatGet (demo [.count 7] [.bytes []]))).map State.outcome = some (some (.error .responseUnderrun)) := by
  decide
/-- A part of P5: the counter wraps, a rejected operation and a class F operation leave it alone. -/
theorem witness_CounterRunsOverOperations :
    let is : List Instr := [.lutofsSet 0, .dispmodeSet true, .trigmodeSet 9, .mboxClose, .patsrcSet 0]
    let s := { quiet [.count 8, .count 8, .count 8, .count 8] [] with seq := 0xFE }
    Ready s ∧ (∀ i ∈ is, IsOperation s.params i) ∧
    (serveAll is s).map (fun t => ((packetsWritten t.history).map (byteAt · 2), t.seq)) = some ([0xFE, 0x00, 0xFF, 0x00], 0x01) := by
  decide
theorem witness_OnlyAcknowledgedPacketsWriteSeq :
    (after (exec .swreset (demo [.count 8] []))).isSome = true ∧ isAcknowledged .swreset = false ∧
    (∀ raw idx exp longer mode rep, Instr.swreset ≠ .upload raw idx exp longer mode rep) ∧
    (∀ cmd2 cmd3 payload readonly reply, Instr.swreset ≠ .encode cmd2 cmd3 payload readonly reply true) :=
  ⟨by decide, by decide, by intros; simp, by intros; simp⟩
/-- Every field's writer does change it. -/
theorem witness_SnapshotFieldsHaveOneWriter :
    ask .hwstatGet 7 goodByte = some (some (.ok (.byte 1)), { Snapshot.absent with hw := some 1 }) ∧
    ask .sysstatGet 7 goodByte = some (some (.ok (.byte 1)), { Snapshot.absent with sys := some 1 }) ∧
    ask .mainstatGet 7 goodByte = some (some (.ok (.byte 1)), { Snapshot.absent with main := some 1 }) ∧
    ask .dispmodeGet 7 goodByte = some (some (.ok (.bit 1)), { Snapshot.absent with dispmode := some 1 }) ∧
    ask .insrcGet 7 goodByte = some (some (.ok (.source 1)), { Snapshot.absent with insrc := some 1 }) :=
  ⟨by decide, by decide, by decide, by decide, by decide⟩
theorem witness_TraceFollowsTheTransport :
    (after (exec .hwstatGet (demo [.count 7] [.bytes goodByte]))).map State.trace =
      some [.tx [0x00, 0xC0, 0x00, 0x02, 0x00, 0x0A, 0x1A], .rx goodByte] := by decide
theorem witness_DebugAndDryrunDoNotInterfere :
    (demo [] []).hideTrace = ({ demo [] [] with cfg := ⟨false, true⟩, trace := [.rx []] } : State).hideTrace ∧
    demo [] [] ≠ { demo [] [] with cfg := ⟨false, true⟩, trace := [.rx []] } := by decide
theorem witness_StepOnlyAppends : (after (step { demo [.count 8] [] with requests := [.run .swreset] })).isSome = true := by
  decide
/-- A response of exactly five bytes for each of the three queries, and a VALIDATE whose history ends in an idle read. -/
theorem witness_DeviceFaultIsDataInsideOk :
    (let s := demo [.count 7] [.bytes busyByte]
     Ready s ∧ 5 ≤ busyByte.length ∧ Answers s (queryPacket s .hwstatGet []) busyByte ∧
     Answers s (queryPacket s .sysstatGet []) busyByte ∧ Answers s (queryPacket s .mainstatGet []) busyByte) ∧
    (let s := demo [.count 8, .count 7] [.bytes idleByte]
     (after (exec (.validate 1) s)).map State.history =
       some (s.history ++ [.wrote (firePacket s .validStart [0]) (.count 8),
         .wrote (plainQuery s.params .validGet) (.count 7)] ++ [.read 64 0 (.bytes idleByte)]) ∧
     5 ≤ idleByte.length ∧ (byteAt idleByte 4).getLsbD 7 = false) := by decide
/-- A connected state with a history meets the invariant, and a step from it answers a next state. -/
theorem witness_StepKeepsTheInvariant :
    let s := { fresh .handle with
               connected := true, history := [.opened 0x0451 0x6401 .handle], requests := [.run .disconnect] }
    Inv s ∧ (after (step s)).isSome = true :=
  ⟨⟨by decide, by decide, by decide, by decide⟩, by decide⟩
theorem witness_ResetMeetsTheInvariant : referenceBinding.Wf := by decide

end Sys2Proof.Tests
end

/-! PROOFS. Reset, the step and the host port (10_state.md R27, R32 to R34, R39). -/

namespace Sys2Proof.Machine

section

open Sys2Proof.Claims

/-- No request is presented: the block waits. -/
theorem step_of_no_requests {s : State} (h : s.requests = []) : step s = .next s := by
  simp only [step, nextRequest, h]

/-- The request presented first is served in the state without it. -/
theorem step_of_requests {s : State} {r : HostRequest} {rest : List HostRequest} (h : s.requests = r :: rest) :
    step s = serve r { s with requests := rest } := by
  simp only [step, nextRequest, h]

theorem readSnapshot_present {s : State} {f : SnapField} {v : Value} (hu : s.ustep = none) (hv : s.snap.get f = some v) :
    readSnapshot f s = ends s (.ok v) := by
  rw [readSnapshot, accept_idle _ hu, hv]
  rfl

theorem readSnapshot_absent {s : State} {f : SnapField} (hu : s.ustep = none) (hv : s.snap.get f = none) :
    readSnapshot f s = .refused (.snapshotAbsent f) := by
  rw [readSnapshot, accept_idle _ hu, hv]

theorem identityAnswer_script {s : State} {w : IdentityString} {text : List Byte} {texts : List (List Byte)}
    (h : s.env.identities = text :: texts) : identityAnswer w s = text := by
  simp [identityAnswer, h]

/-- On an idle block an identity query records and answers the string that the script holds next. -/
theorem askIdentity_script {s : State} {w : IdentityString} {text : List Byte} {texts : List (List Byte)}
    (hu : s.ustep = none) (h : s.env.identities = text :: texts) :
    askIdentity w s = ends { s with env := { s.env with identities := texts }, draws := s.draws + 1,
                                    history := s.history ++ [.identity w text] } (.ok (.identity text)) := by
  rw [askIdentity, accept_idle _ hu]
  simp only [deliver, queryIdentity, identityAnswer_script h, h, List.tail_cons, ends]

/-- After construction no query has written a snapshot field (10_state.md R27). -/
@[simp] theorem construct_snap_get (c : Cfg) (p : Params) (f : SnapField) : (State.construct c p).snap.get f = none := by
  cases f <;> rfl

/-- A construction under a binding that meets 00_scope.md R6 meets the invariant: nothing is in progress and the history
is empty. -/
theorem construct_inv (c : Cfg) {p : Params} (hp : p.Wf) : Inv (State.construct c p) where
  atRest := ⟨construct_ustep c p, construct_tx c p, construct_rx c p⟩
  paramsWf := hp
  history := rfl
  bounded := rfl

/-- Settles O1: reset is such a construction, under the binding of `config_params_wf`. -/
theorem resetIsConstruction : Obligations.ResetIsConstruction :=
  ⟨fun c p => ⟨construct_seq c p, construct_connected c p, construct_cfg c p, construct_params c p,
    construct_snap_get c p, construct_ustep c p, construct_tx c p, construct_rx c p, construct_history c p⟩,
    _, _, rfl, config_params_wf⟩

/-- Settles O2. -/
theorem stepServesTheNextRequest : Obligations.StepServesTheNextRequest :=
  ⟨fun _ h => step_of_no_requests h, fun _ _ _ h => step_of_requests h⟩

/-- Settles O46: the two answers of `readSnapshot` on an idle block. -/
theorem hostReadsOnlyWrittenSnapshotFields : Obligations.HostReadsOnlyWrittenSnapshotFields := by
  intro s f rest hu hq
  rw [step_of_requests hq]
  exact ⟨fun v hv => readSnapshot_present hu hv, fun hv => readSnapshot_absent hu hv⟩

/-- Settles O47: the answer of `askIdentity` on an idle block. -/
theorem identityStringsPassThrough : Obligations.IdentityStringsPassThrough := by
  intro s which text texts rest hu hq ht
  rw [step_of_requests hq]
  exact askIdentity_script hu ht

/-- Settles O60. -/
theorem resetMeetsTheInvariant : Obligations.ResetMeetsTheInvariant :=
  ⟨construct_inv _ config_params_wf, fun c _ hp => construct_inv c hp⟩

end

end Sys2Proof.Machine

/-! PROOFS. O56: a step does not see the configuration, the trace port's past or `POLL_DELAY`. An activity is blind when
it does the same, up to these, on a state and on what an observer sees of it; blindness is shown of the accesses and
carried through sequencing, the operations and the procedures. -/

namespace Sys2Proof.Machine

section

/-- What an observer who sees neither the trace port nor `CFG` nor `POLL_DELAY` sees of an activity. -/
def hideRes {α : Type} (r : Res α) : Res α := (r.1.hideTrace, r.2)

/-- The activity does not depend on what `State.hideTrace` hides. -/
def Blind {α : Type} (f : State → Res α) : Prop := ∀ s : State, hideRes (f s.hideTrace) = hideRes (f s)

/-- The same of a whole request. -/
def BlindRequest (f : State → Host.Outcome State Fault Refusal) : Prop :=
  ∀ s : State, viewOutcome State.hideTrace (f s.hideTrace) = viewOutcome State.hideTrace (f s)

theorem Blind.congr {α : Type} {f : State → Res α} (hf : Blind f) {s t : State} (h : s.hideTrace = t.hideTrace) :
    hideRes (f s) = hideRes (f t) := by
  rw [← hf s, ← hf t, h]

/-- Two results that look the same, sequenced with the same blind continuation, look the same. -/
theorem hideRes_andThen {α β : Type} {m m' : Res α} {g : State → α → Res β} (hm : hideRes m = hideRes m')
    (hg : ∀ a, Blind fun s => g s a) : hideRes (m.andThen g) = hideRes (m'.andThen g) := by
  obtain ⟨s, r⟩ := m
  obtain ⟨s', r'⟩ := m'
  obtain ⟨hs, rfl⟩ : s.hideTrace = s'.hideTrace ∧ r = r' := Prod.mk.inj hm
  cases r with
  | error e => exact Prod.ext hs rfl
  | ok a => exact (hg a).congr hs

theorem Blind.andThen {α β : Type} {f : State → Res α} {g : State → α → Res β} (hf : Blind f)
    (hg : ∀ a, Blind fun s => g s a) : Blind fun s => (f s).andThen g :=
  fun s => hideRes_andThen (hf s) hg

/-- The update does to what an observer sees of a state what it does to the state. -/
def Visible (k : State → State) : Prop := ∀ s : State, k s.hideTrace = (k s).hideTrace

/-- A visible update before a blind activity. -/
theorem Blind.after {α : Type} {f : State → Res α} (hf : Blind f) {k : State → State} (hk : Visible k) :
    Blind fun s => f (k s) := by
  intro s
  show hideRes (f (k s.hideTrace)) = _
  rw [hk]
  exact hf (k s)

/-- A visible update after a blind activity, however it ended. -/
theorem Blind.leaving {α : Type} {f : State → Res α} (hf : Blind f) {k : State → State} (hk : Visible k) :
    Blind fun s => (k (f s).1, (f s).2) := by
  intro s
  obtain ⟨hs, hr⟩ := Prod.mk.inj (hf s)
  exact Prod.ext (by rw [hideRes, ← hk, hs, hk]; rfl) hr

theorem Visible.comp {k l : State → State} (hk : Visible k) (hl : Visible l) : Visible fun s => k (l s) := by
  intro s
  show k (l s.hideTrace) = _
  rw [hl, hk]

theorem setUstep_visible (n : Nat) : Visible (setUstep n) := fun _ => rfl

theorem discardBuffers_visible : Visible discardBuffers := fun _ => rfl

theorem buildPacket_visible (op : Op) (pl : List Nat) : Visible (buildPacket op pl) := fun _ => rfl

theorem writeTransport_visible : Visible writeTransport := fun _ => rfl

theorem sampleCancel_visible : Visible sampleCancel := by
  intro s
  have hc : s.hideTrace.params.hasCancel = s.params.hasCancel := rfl
  unfold sampleCancel
  rw [hc]
  split <;> rfl

/-- A choice by something an observer sees. -/
theorem Blind.ite {α : Type} {c : State → Bool} {f g : State → Res α} (hc : ∀ s, c s.hideTrace = c s) (hf : Blind f)
    (hg : Blind g) : Blind fun s => if c s then f s else g s := by
  intro s
  simp only [hc]
  split
  · exact hf s
  · exact hg s

theorem raise_blind {α : Type} (e : Ending) : Blind (raise e : State → Res α) := fun _ => rfl

theorem ok_blind {α : Type} (a : α) : Blind fun s => (s, .ok a) := fun _ => rfl

theorem noResult_blind : Blind noResult := fun _ => rfl

/-! The operations. -/

theorem parsed_blind {α β : Type} (find : List Byte → Option α) {use : α → State → State × β}
    (hu : ∀ a u, ((use a u.hideTrace).1.hideTrace, (use a u.hideTrace).2) = ((use a u).1.hideTrace, (use a u).2)) :
    Blind fun u => parsed (find u.rx) use u := by
  intro u
  show hideRes (parsed (find u.rx) use u.hideTrace) = hideRes (parsed (find u.rx) use u)
  cases find u.rx with
  | none => rfl
  | some a =>
    obtain ⟨hs, hv⟩ := Prod.mk.inj (hu a u)
    exact Prod.ext hs (congrArg Except.ok hv)

theorem receive_blind : Blind receive := by
  intro s
  have hr : readAnswer s.hideTrace = readAnswer s := rfl
  unfold receive
  rw [hr]
  cases readAnswer s with
  | failure => rfl
  | bytes r => rfl

theorem issue_blind (op : Op) (pl : List Nat) : Blind (issue op pl) := by
  have written : Visible fun s => writeTransport (buildPacket op pl s) :=
    writeTransport_visible.comp (buildPacket_visible op pl)
  exact Blind.ite (c := fun s => writeAccepted (buildPacket op pl s).tx (buildPacket op pl s)) (fun _ => rfl)
    (Blind.ite (c := fun s => op.cls.reply s.params.ackReply) (fun _ => rfl) (receive_blind.after written)
      ((ok_blind ()).after written))
    ((raise_blind _).after written)

theorem operation_blind {α : Type} {parse : State → Res α} (hp : Blind parse) (check : Option ConfigCause) (op : Op)
    (pl : List Nat) : Blind (operation check op pl parse) := by
  cases check with
  | some c => exact raise_blind _
  | none => exact ((issue_blind op pl).andThen fun _ => hp).leaving discardBuffers_visible

/-- An operation without a result. -/
theorem operation_noResult_blind (check : Option ConfigCause) (op : Op) (pl : List Nat) :
    Blind (operation check op pl noResult) := operation_blind noResult_blind check op pl

/-- A query whose parser writes the snapshot at most. -/
theorem query_blind {α β : Type} (find : List Byte → Option α) {use : α → State → State × β}
    (hu : ∀ a u, ((use a u.hideTrace).1.hideTrace, (use a u.hideTrace).2) = ((use a u).1.hideTrace, (use a u).2))
    (op : Op) (pl : List Nat) : Blind (operation none op pl fun u => parsed (find u.rx) use u) :=
  operation_blind (parsed_blind find hu) none op pl

theorem opHwstatGet_blind : Blind opHwstatGet := query_blind (rxByte · resultOffset) (fun _ _ => rfl) _ _
theorem opSysstatGet_blind : Blind opSysstatGet := query_blind (rxByte · resultOffset) (fun _ _ => rfl) _ _
theorem opMainstatGet_blind : Blind opMainstatGet := query_blind (rxByte · resultOffset) (fun _ _ => rfl) _ _
theorem opValidGet_blind : Blind opValidGet := query_blind (rxByte · resultOffset) (fun _ _ => rfl) _ _
theorem opValidStart_blind : Blind opValidStart := fun s => operation_noResult_blind _ _ _ s
theorem opMboxClose_blind : Blind opMboxClose := fun s => operation_noResult_blind _ _ _ s

/-! The procedures. -/

theorem procedure_blind {α : Type} {body : State → Res α} (hb : Blind body) : Blind (procedure body) :=
  (hb.after (setUstep_visible 0)).leaving (k := fun u => { u with ustep := none }) fun _ => rfl

theorem runSteps_blind {steps : List (State → Res Value)} (hs : ∀ f ∈ steps, Blind f) (k : Nat) :
    Blind (runSteps k steps) := by
  induction steps generalizing k with
  | nil => exact ok_blind _
  | cons f rest ih =>
    obtain ⟨hf, hrest⟩ := List.forall_mem_cons.1 hs
    exact hf.andThen fun _ => (ih hrest (k + 1)).after (setUstep_visible _)

theorem uploadSteps_blind (p : Params) (raw idx : List Nat) (exp : Nat) (longer : Bool) (mode : Nat) (rep : Bool) :
    ∀ f ∈ uploadSteps p raw idx exp longer mode rep, Blind f := by
  simp only [uploadSteps, List.forall_mem_cons, List.not_mem_nil, false_implies, implies_true, and_true]
  refine ⟨?_, ?_, ?_, ?_, ?_, ?_, ?_, opMboxClose_blind, ?_, ?_, ?_, opMboxClose_blind⟩
  all_goals exact operation_noResult_blind _ _ _

theorem uploadBody_blind (raw idx : List Nat) (exp : Nat) (longer : Bool) (mode : Nat) (rep : Bool) :
    Blind (uploadBody raw idx exp longer mode rep) := by
  intro s
  unfold uploadBody
  cases preflight raw idx mode with
  | some c => rfl
  | none => exact procedure_blind (runSteps_blind (uploadSteps_blind s.params raw idx exp longer mode rep) 0) s

theorem validateAttempts_blind (left k : Nat) : Blind (validateAttempts k left) := by
  induction left generalizing k with
  | zero => exact raise_blind _
  | succ left ih =>
    have top : Visible fun s => sampleCancel (setUstep 1 s) := sampleCancel_visible.comp (setUstep_visible 1)
    refine Blind.ite (c := cancelSample) (fun _ => rfl) ((raise_blind _).after top)
      ((opValidGet_blind.after top).andThen ?_)
    rintro ⟨busy, faults, raw⟩
    cases busy with
    | true => exact (ih (k + 1)).after (setUstep_visible 2)
    | false => exact (ok_blind _).after (setUstep_visible 2)

theorem validateBody_blind (n : Nat) : Blind (validateBody n) :=
  procedure_blind (opValidStart_blind.andThen fun _ => validateAttempts_blind n 1)

theorem statusQueries_blind : ∀ f ∈ statusQueries, Blind f := by
  simp only [statusQueries, List.forall_mem_cons, List.not_mem_nil, false_implies, implies_true, and_true]
  exact ⟨opHwstatGet_blind, opSysstatGet_blind, opMainstatGet_blind⟩

theorem pollAttempts_blind (left k : Nat) : Blind (pollAttempts k left) := by
  induction left generalizing k with
  | zero => exact raise_blind _
  | succ left ih =>
    have top : Visible fun s => sampleCancel (setUstep 0 s) := sampleCancel_visible.comp (setUstep_visible 0)
    refine Blind.ite (c := cancelSample) (fun _ => rfl) ((raise_blind _).after top)
      (((runSteps_blind statusQueries_blind 0).after top).andThen fun _ s => ?_)
    have hn : nominalStatus k s.hideTrace = nominalStatus k s := rfl
    simp only [hn]
    cases nominalStatus k s with
    | some v => rfl
    | none => exact ih (k + 1) s

theorem pollBody_blind (retries : Option Nat) : Blind (pollBody retries) :=
  procedure_blind (pollAttempts_blind _ 1)

/-! The requests. -/

theorem Blind.deliver {f : State → Res Value} (hf : Blind f) (s : State) :
    (deliver (f s.hideTrace)).hideTrace = (deliver (f s)).hideTrace := by
  obtain ⟨hs, hr⟩ := Prod.mk.inj (hf s)
  show Machine.deliver ((f s.hideTrace).1.hideTrace, (f s.hideTrace).2) = Machine.deliver ((f s).1.hideTrace, (f s).2)
  rw [hs, hr]

theorem BlindRequest.next {f : State → Res Value} (hf : Blind f) : BlindRequest fun s => .next (deliver (f s)) :=
  fun s => congrArg Host.Outcome.next (hf.deliver s)

theorem BlindRequest.refused (r : Refusal) : BlindRequest fun _ => .refused r := fun _ => rfl

theorem BlindRequest.ite {c : State → Bool} {f g : State → Host.Outcome State Fault Refusal}
    (hc : ∀ s, c s.hideTrace = c s) (hf : BlindRequest f) (hg : BlindRequest g) :
    BlindRequest fun s => if c s then f s else g s := by
  intro s
  simp only [hc]
  split
  · exact hf s
  · exact hg s

theorem BlindRequest.accept {body : State → Host.Outcome State Fault Refusal} (hb : BlindRequest body) :
    BlindRequest (accept body) :=
  .ite (c := fun s => s.ustep.isSome) (fun _ => rfl) (.refused _) hb

theorem BlindRequest.serveConnected {body : State → Res Value} (hb : Blind body) : BlindRequest (serveConnected body) :=
  .accept (.ite (c := State.connected) (fun _ => rfl) (.next hb) (.refused _))

theorem connectBody_blind : Blind connectBody := by
  intro s
  have ho : openAnswer s.hideTrace = openAnswer s := rfl
  unfold connectBody
  rw [ho]
  cases openAnswer s with
  | handle => rfl
  | failure => rfl

theorem disconnectBody_visible : Visible disconnectBody := by
  intro s
  have hc : s.hideTrace.connected = s.connected := rfl
  unfold disconnectBody
  rw [hc]
  split <;> rfl

/-- A request of the table for an operation without a result, whose payload depends on what an observer sees at most. -/
theorem noResult_request_blind (check : Option ConfigCause) (op : Op) (payload : State → List Nat)
    (hp : ∀ s, payload s.hideTrace = payload s) :
    BlindRequest fun s => serveConnected (operation check op (payload s) noResult) s := by
  intro s
  show viewOutcome _ (serveConnected (operation check op (payload s.hideTrace) noResult) s.hideTrace) = _
  rw [hp]
  exact BlindRequest.serveConnected (operation_noResult_blind check op (payload s)) s

/-- Every request of the table is blind. -/
theorem exec_blind (i : Instr) : BlindRequest (exec i) := by
  cases i
  case hwstatGet => exact .serveConnected opHwstatGet_blind
  case sysstatGet => exact .serveConnected opSysstatGet_blind
  case mainstatGet => exact .serveConnected opMainstatGet_blind
  case curbufGet => exact .serveConnected (query_blind (rxBits · resultOffset 1) (fun _ _ => rfl) _ _)
  case insrcGet => exact .serveConnected (query_blind (rxBits · resultOffset 2) (fun _ _ => rfl) _ _)
  case imgtimeGet start count => exact .serveConnected (query_blind (rxTick · resultOffset) (fun _ _ => rfl) _ _)
  case dispmodeGet => exact .serveConnected (query_blind (rxBits · resultOffset 1) (fun _ _ => rfl) _ _)
  case ledenGet => exact .serveConnected (query_blind (rxByte · resultOffset) (fun _ _ => rfl) _ _)
  case ledpolGet => exact .serveConnected (query_blind (rxByte · resultOffset) (fun _ _ => rfl) _ _)
  case ledcurGet => exact .serveConnected (query_blind (rxTriple · resultOffset) (fun _ _ => rfl) _ _)
  case gpioGet pin => exact .serveConnected (query_blind (rxByte · addressedOffset) (fun _ _ => rfl) _ _)
  case validGet => exact .serveConnected (opValidGet_blind.andThen fun _ => ok_blind _)
  case encode c2 c3 pl ro rp us => exact .accept fun _ => rfl
  case decode p =>
    refine .accept fun s => ?_
    cases decodeFrame p with
    | ok f => rfl
    | error c => rfl
  case connect => exact .accept (.ite (c := State.connected) (fun _ => rfl) (.refused _) (.next connectBody_blind))
  case disconnect => exact .accept (.next ((ok_blind _).after disconnectBody_visible))
  case upload raw idx exp longer mode rep => exact .serveConnected (uploadBody_blind raw idx exp longer mode rep)
  case validate n => exact .serveConnected (validateBody_blind n)
  case pollstat retries => exact .serveConnected (pollBody_blind retries)
  case swreset => exact noResult_request_blind none .swreset (fun s => [s.params.swresetByte.toNat]) fun _ => rfl
  case trigout1Set pol d0 d1 =>
    exact noResult_request_blind none .trigout1Set (fun s => trigout1Payload s.params pol d0 d1) fun _ => rfl
  case patseqCtl act =>
    exact noResult_request_blind none .patseqCtl (fun s => [(s.params.patseqCode act).toNat]) fun s => by cases act <;> rfl
  case mboxClose => exact .serveConnected opMboxClose_blind
  case validStart => exact .serveConnected opValidStart_blind
  all_goals exact .serveConnected (operation_noResult_blind _ _ _)

theorem readSnapshot_blind (f : SnapField) : BlindRequest (readSnapshot f) := by
  refine .accept fun s => ?_
  have hg : s.hideTrace.snap.get f = s.snap.get f := rfl
  simp only [hg]
  cases s.snap.get f with
  | some v => rfl
  | none => rfl

theorem askIdentity_blind (w : IdentityString) : BlindRequest (askIdentity w) := .accept fun _ => rfl

theorem serve_blind (r : HostRequest) : BlindRequest (serve r) := by
  cases r with
  | run i => exact exec_blind i
  | readSnap f => exact readSnapshot_blind f
  | identity w => exact askIdentity_blind w
  | unknown m => exact .refused _

theorem step_blind : BlindRequest step := by
  intro s
  cases hq : s.requests with
  | nil => rw [step_of_no_requests (s := s.hideTrace) hq, step_of_no_requests hq]; rfl
  | cons r rest =>
    rw [step_of_requests (s := s.hideTrace) hq, step_of_requests hq]
    exact serve_blind r { s with requests := rest }

/-- Settles O56: both steps look like the step of the one state that the observer sees. -/
theorem debugAndDryrunDoNotInterfere : Obligations.DebugAndDryrunDoNotInterfere := by
  intro s t h
  rw [← step_blind s, ← step_blind t, h]

end

end Sys2Proof.Machine

/-! PROOFS. O59: the invariant of the block and its transport protocol. `USTEP` moves inside a procedure and is absent
again after every request (`exec_ustep`); the rest of the invariant is kept by every access. -/

namespace Sys2Proof.Machine

section

/-- The invariant without `USTEP`: what holds inside a procedure too. -/
structure SessionInv (s : State) : Prop where
  tx       : s.tx = []
  rx       : s.rx = []
  paramsWf : s.params.Wf
  history  : replay false s.history = some s.connected
  bounded  : readsBounded s.params s.history = true

theorem inv_iff (s : State) : Inv s ↔ s.ustep = none ∧ SessionInv s :=
  ⟨fun ⟨⟨hu, ht, hr⟩, hp, hh, hb⟩ => ⟨hu, ht, hr, hp, hh, hb⟩,
    fun ⟨hu, ht, hr, hp, hh, hb⟩ => ⟨⟨hu, ht, hr⟩, hp, hh, hb⟩⟩

/-- A stretch of history that the protocol allows from the present `CONNECTED`, with its reads within bounds, leaves the
session in order. -/
theorem SessionInv.append {s t : State} (h : SessionInv s) (new : List TransportEvent) (hh : t.history = s.history ++ new)
    (hr : replay s.connected new = some t.connected) (hb : readsBounded s.params new = true)
    (hp : t.params = s.params := by rfl) (htx : t.tx = [] := by rfl) (hrx : t.rx = [] := by rfl) : SessionInv t where
  tx := htx
  rx := hrx
  paramsWf := hp ▸ h.paramsWf
  history := by rw [hh, replay_append new h.history, hr]
  bounded := by rw [hp, hh, readsBounded_append, h.bounded, hb]; rfl

/-- A write of a packet of the one format that no read has to follow is legal on a connected block. -/
theorem replay_wrote {p : List Byte} {a : WriteAnswer} (hp : packetForm p = true)
    (hn : a = .count p.length → replyBit p = false) : replay true [.wrote p a] = some true := by
  have hr : ¬ ((a == .count p.length && replyBit p) = true) := by
    simp only [Bool.and_eq_true, beq_iff_eq, not_and, Bool.not_eq_true]
    exact hn
  simp only [replay, hp, Bool.and_self, if_true, if_neg hr]

/-- An accepted packet that asks for a reply, with the read that follows it, is legal on a connected block. -/
theorem replay_exchanged {p : List Byte} {m t : Nat} {r : ReadAnswer} (hp : packetForm p = true)
    (hk : replyBit p = true) : replay true [.wrote p (.count p.length), .read m t r] = some true := by
  rw [replay, if_pos (by rw [hp]; rfl), if_pos (by rw [hk]; simp)]
  rfl

/-- A read as the block makes it asks for `RX_MAXLEN` bytes and gets no more. -/
theorem readsBounded_read (s u : State) (hp : u.params = s.params) :
    readsBounded s.params [.read s.params.rxMaxLen s.params.rxTimeoutMs (readAnswer u)] = true := by
  cases hr : readAnswer u with
  | failure => simp [readsBounded]
  | bytes r => simpa [readsBounded] using hp ▸ readAnswer_length hr

theorem sampleCancel_sessionInv {s : State} (h : SessionInv s) : SessionInv (sampleCancel s) :=
  h.append [] (by simp) (by simp [replay]) rfl (by simp) (by simp [h.tx]) (by simp [h.rx])

/-- Every access keeps the session in order. -/
theorem sessionInv_kept : KeptByAccesses SessionInv where
  sent op pl u hc hn h := by
    refine h.append _ (sent_history op pl u) ?_ rfl
    rw [hc, sent_connected, hc]
    refine replay_wrote (packetForm_opPacket _ _ _ _) fun ha => ?_
    rw [replyBit_opPacket]
    exact hn ((writeAccepted_iff _ _).2 ha)
  answered op pl u hc hw hk h := by
    refine h.append _ (afterRead_sent_history op pl u) ?_ ?_
    · rw [(writeAccepted_iff _ _).1 hw, hc, afterRead_connected, sent_connected, hc]
      exact replay_exchanged (packetForm_opPacket _ _ _ _) (by rw [replyBit_opPacket]; exact hk)
    · exact readsBounded_read u (sent op pl u) rfl
  snap _ _ h := ⟨h.tx, h.rx, h.paramsWf, h.history, h.bounded⟩
  ustep _ _ h := ⟨h.tx, h.rx, h.paramsWf, h.history, h.bounded⟩
  cancel _ h := sampleCancel_sessionInv h
  outcome _ _ h := ⟨h.tx, h.rx, h.paramsWf, h.history, h.bounded⟩
  opened u hc ho h := by
    refine h.append _ (openTransport_history u) ?_ rfl rfl h.tx h.rx
    rw [hc, ho]
    rfl
  openFailed u hc ho h := by
    have hh : (closeTransport (openTransport u)).history =
        u.history ++ [.opened u.params.vendorId u.params.productId (openAnswer u), .closed] := by simp
    refine h.append _ hh ?_ rfl rfl h.tx h.rx
    rw [ho, closeTransport_connected, openTransport_connected, hc]
    rfl
  closed u hc h := by
    refine h.append _ (closeTransport_history u) ?_ rfl rfl h.tx h.rx
    rw [hc]
    rfl
  encoded _ _ h := ⟨rfl, rfl, h.paramsWf, h.history, h.bounded⟩

/-- Every request of the table keeps the invariant. -/
theorem exec_inv {i : Instr} {s t : State} (he : exec i s = .next t) (h : Inv s) : Inv t :=
  (inv_iff t).2 ⟨exec_ustep he, sessionInv_kept.exec he ((inv_iff s).1 h).2⟩

/-- The host port's two ends are no part of the invariant. -/
theorem inv_hostPort {s : State} (h : Inv s) (rest : List HostRequest) (o : Option (Except Ending Value)) :
    Inv { s with requests := rest, outcome := o } := ⟨h.atRest, h.paramsWf, h.history, h.bounded⟩

theorem queryIdentity_inv (w : IdentityString) {s : State} (h : Inv s) : Inv (queryIdentity w s) := by
  obtain ⟨hu, hs⟩ := (inv_iff s).1 h
  exact (inv_iff _).2 ⟨hu, hs.append _ (queryIdentity_history w s) rfl rfl rfl hs.tx hs.rx⟩

/-- Settles O59, along the ways a step can answer a next state. -/
theorem stepKeepsTheInvariant : Obligations.StepKeepsTheInvariant := by
  intro s t h hs
  obtain ⟨-, rfl⟩ | ⟨q, rest, -, ⟨i, -, he⟩ | ⟨o, rfl⟩ | ⟨w, -, rfl⟩⟩ := step_cases hs
  · exact h
  · exact exec_inv he (inv_hostPort h rest s.outcome)
  · exact inv_hostPort h rest o
  · have hq := queryIdentity_inv w (inv_hostPort h rest s.outcome)
    exact inv_hostPort hq rest _

end

end Sys2Proof.Machine

/-! PROOFS. O55 and O57: what a step adds to the history and to the trace port, and that it rewrites neither. -/

namespace Sys2Proof.Machine

section

open Sys2Proof.Claims

/-- `t` comes after `s` in one session: the configuration and the binding are as they were, the history has grown at its
end, and the trace port has gained the events of what the history gained (10_state.md R23, R35). -/
def Continues (s t : State) : Prop :=
  t.cfg = s.cfg ∧ t.params = s.params ∧ s.draws ≤ t.draws ∧
  ∃ new, t.history = s.history ++ new ∧ t.trace = s.trace ++ traced s new

theorem traced_append (s : State) (h h' : List TransportEvent) : traced s (h ++ h') = traced s h ++ traced s h' := by
  unfold traced traceOf
  split
  · exact List.filterMap_append
  · rfl

theorem traced_congr {s t : State} (h : t.cfg = s.cfg) (new : List TransportEvent) : traced t new = traced s new := by
  simp only [traced, h]

/-- An update that leaves the history, the trace, the configuration and the binding alone. -/
theorem Continues.of_same {s t : State} (hc : t.cfg = s.cfg) (hp : t.params = s.params) (hd : s.draws ≤ t.draws)
    (hh : t.history = s.history) (ht : t.trace = s.trace) : Continues s t :=
  ⟨hc, hp, hd, [], by rw [hh, List.append_nil], by rw [ht]; simp [traced, traceOf]⟩

theorem Continues.refl (s : State) : Continues s s := .of_same rfl rfl le_rfl rfl rfl

theorem Continues.trans {s t u : State} (h : Continues s t) (h' : Continues t u) : Continues s u := by
  obtain ⟨hc, hp, hd, new, hh, ht⟩ := h
  obtain ⟨hc', hp', hd', new', hh', ht'⟩ := h'
  refine ⟨hc'.trans hc, hp'.trans hp, hd.trans hd', new ++ new', ?_, ?_⟩
  · rw [hh', hh, List.append_assoc]
  · rw [ht', ht, traced_congr hc, traced_append, List.append_assoc]

theorem continues_sent (op : Op) (pl : List Nat) (s : State) : Continues s (sent op pl s) := by
  refine ⟨rfl, rfl, Nat.le_succ _, _, sent_history op pl s, ?_⟩
  rw [sent_trace]
  unfold traced
  split
  · rfl
  · exact (List.append_nil _).symm

theorem continues_afterRead (s : State) : Continues s (afterRead s) := by
  refine ⟨rfl, rfl, Nat.le_succ _, _, afterRead_history s, ?_⟩
  unfold traced afterRead
  cases readAnswer s with
  | failure => simp [traceOf]
  | bytes r => cases s.cfg.debug <;> simp [traceOf]

theorem continues_openTransport (s : State) : Continues s (openTransport s) :=
  ⟨rfl, rfl, Nat.le_succ _, _, openTransport_history s, by simp [traced, traceOf]⟩

theorem continues_closeTransport (s : State) : Continues s (closeTransport s) :=
  ⟨rfl, rfl, le_rfl, _, closeTransport_history s, by simp [traced, traceOf]⟩

theorem continues_queryIdentity (w : IdentityString) (s : State) : Continues s (queryIdentity w s) :=
  ⟨rfl, rfl, Nat.le_succ _, _, queryIdentity_history w s, by simp [traced, traceOf]⟩

theorem continues_sampleCancel (s : State) : Continues s (sampleCancel s) :=
  .of_same (sampleCancel_cfg s) (sampleCancel_params s) (by rw [sampleCancel_draws]; split <;> omega)
    (sampleCancel_history s) (sampleCancel_trace s)

/-- Every access continues the session. -/
theorem continues_kept (s : State) : KeptByAccesses (Continues s) where
  sent op pl u _ _ h := h.trans (continues_sent op pl u)
  answered op pl u _ _ _ h := h.trans ((continues_sent op pl u).trans (continues_afterRead _))
  snap _ _ h := h
  ustep _ _ h := h
  cancel u h := h.trans (continues_sampleCancel u)
  outcome _ _ h := h
  opened u _ _ h := h.trans (continues_openTransport u)
  openFailed u _ _ h := h.trans ((continues_openTransport u).trans (continues_closeTransport _))
  closed u _ h := h.trans (continues_closeTransport u)
  encoded _ _ h := h

theorem exec_continues {i : Instr} {s t : State} (he : exec i s = .next t) : Continues s t :=
  (continues_kept s).exec he (.refl s)

theorem step_continues {s t : State} (h : step s = .next t) : Continues s t := by
  obtain ⟨-, rfl⟩ | ⟨q, rest, -, ⟨i, -, he⟩ | ⟨o, rfl⟩ | ⟨w, -, rfl⟩⟩ := step_cases h
  · exact .refl _
  · have served : Continues { s with requests := rest } t := exec_continues he
    exact served
  · exact .of_same rfl rfl le_rfl rfl rfl
  · exact continues_queryIdentity w { s with requests := rest }

/-- Settles O55. -/
theorem traceFollowsTheTransport : Obligations.TraceFollowsTheTransport := by
  intro s t i he
  obtain ⟨-, -, -, grown⟩ := exec_continues he
  exact grown

/-- Settles O57. -/
theorem stepOnlyAppends : Obligations.StepOnlyAppends := by
  intro s t h
  obtain ⟨hc, hp, hd, new, hh, ht⟩ := step_continues h
  exact ⟨hc, hp, ⟨new, hh.symm⟩, ⟨_, ht.symm⟩, hd⟩

end

end Sys2Proof.Machine

/-! PROOFS. O53 and O54: who writes `SEQ` and who writes a snapshot field. -/

namespace Sys2Proof.Machine

section

open Sys2Proof.Claims

/-- `SEQ` and the snapshot are as they were. -/
def RegistersKept (s t : State) : Prop := t.seq = s.seq ∧ t.snap = s.snap

/-- The requests that write a snapshot field (10_state.md R24 to R26). -/
def Writes (i : Instr) : SnapField → Prop
  | .hw => i = .hwstatGet ∨ ∃ r, i = .pollstat r
  | .sys => i = .sysstatGet ∨ ∃ r, i = .pollstat r
  | .main => i = .mainstatGet ∨ ∃ r, i = .pollstat r
  | .dispmode => i = .dispmodeGet
  | .insrc => i = .insrcGet
  | .ledR | .ledG | .ledB => i = .ledcurGet

/-- A field changes only where the request writes it, and one that holds a value still holds one. -/
def OneWriter (i : Instr) (a b : Snapshot) : Prop :=
  ∀ f, ((a.get f).isSome → (b.get f).isSome) ∧ (b.get f ≠ a.get f → Writes i f)

theorem OneWriter.of_eq (i : Instr) {a b : Snapshot} (h : b = a) : OneWriter i a b := by
  subst h
  exact fun _ => ⟨id, fun hne => absurd rfl hne⟩

theorem OneWriter.trans {i : Instr} {a b c : Snapshot} (h : OneWriter i a b) (h' : OneWriter i b c) : OneWriter i a c := by
  intro f
  refine ⟨fun hf => (h' f).1 ((h f).1 hf), fun hne => ?_⟩
  by_cases hb : b.get f = a.get f
  · exact (h' f).2 (hb ▸ hne)
  · exact (h f).2 hb

theorem OneWriter.mono {i j : Instr} {a b : Snapshot} (h : OneWriter i a b) (hij : ∀ f, Writes i f → Writes j f) :
    OneWriter j a b := fun f => ⟨(h f).1, fun hne => hij f ((h f).2 hne)⟩

/-- What the parser of an operation may write are the operation's own fields. -/
theorem SnapWrites.oneWriter {i : Instr} {a b : Snapshot} (h : SnapWrites i a b) : OneWriter i a b := by
  cases i
  case hwstatGet | sysstatGet | mainstatGet | dispmodeGet | insrcGet =>
    obtain ⟨v, rfl⟩ := h
    intro f
    cases f <;> simp [Snapshot.get, Writes]
  case ledcurGet =>
    obtain ⟨x, y, z, rfl⟩ := h
    intro f
    cases f <;> simp [Snapshot.get, Writes]
  all_goals exact .of_eq _ h

/-- POLLSTAT writes what its three queries write. -/
theorem writes_pollstat {i : Instr} (hi : i = .hwstatGet ∨ i = .sysstatGet ∨ i = .mainstatGet) (r : Option Nat)
    (f : SnapField) (h : Writes i f) : Writes (.pollstat r) f := by
  rcases hi with rfl | rfl | rfl <;> cases f <;> simp [Writes] at h ⊢

/-! What an operation does to the two registers. -/

/-- `SEQ` advances exactly with the packets that carry it (40_framer.md R122). -/
theorem OperationEnds.seq {α : Type} {writes : Snapshot → Snapshot → Prop} {op : Op} {pl : List Nat} {s : State}
    {r : Res α} (h : OperationEnds writes op pl s r) : r.1.seq = if op.cls.useSequence then s.seq + 1 else s.seq := by
  cases h <;> rfl

/-- An operation leaves the snapshot alone or writes it as its parser may. -/
theorem OperationEnds.snap {α : Type} {writes : Snapshot → Snapshot → Prop} {op : Op} {pl : List Nat} {s : State}
    {r : Res α} (h : OperationEnds writes op pl s r) : r.1.snap = s.snap ∨ writes s.snap r.1.snap := by
  cases h with
  | answered r snap v hw hk hr hs => exact .inr hs
  | _ => exact .inl rfl

theorem OperationEnds.oneWriter {α : Type} {i : Instr} {op : Op} {pl : List Nat} {s : State} {r : Res α}
    (h : OperationEnds (SnapWrites i) op pl s r) : OneWriter i s.snap r.1.snap :=
  h.snap.elim (OneWriter.of_eq i) SnapWrites.oneWriter

theorem OperationEnds.registersKept {α : Type} {op : Op} {pl : List Nat} {s : State} {r : Res α}
    (h : OperationEnds (fun a b => b = a) op pl s r) (hc : op.cls.useSequence = false) : RegistersKept s r.1 :=
  ⟨by rw [h.seq, hc]; rfl, h.snap.elim id id⟩

theorem operation_noResult_snap (check : Option ConfigCause) (op : Op) (pl : List Nat) (s : State) :
    (operation check op pl noResult s).1.snap = s.snap := by
  cases check with
  | some c => rfl
  | none => exact (operation_ends (noResult_fits _) pl s).snap.elim id id

theorem opMboxClose_snap (s : State) : (opMboxClose s).1.snap = s.snap := operation_noResult_snap _ _ _ s

/-- The operations that carry `SEQ` are the class A operations (30_encoding.md R90, R100). -/
theorem useSequence_eq_isAcknowledged {p : Params} {i : Instr} {op : Op} {pl : List Nat} (hi : i.wire p = some (op, pl)) :
    op.cls.useSequence = isAcknowledged i := by
  cases i <;> simp only [Instr.wire, Option.some.injEq, Prod.mk.injEq, reduceCtorEq] at hi
  all_goals
    obtain ⟨rfl, -⟩ := hi
    rfl

/-- What each of the 34 operations does to the two registers. -/
theorem exec_operation_registers {s t : State} {i : Instr} {op : Op} {pl : List Nat} (hi : i.wire s.params = some (op, pl))
    (he : exec i s = .next t) : (isAcknowledged i = false → t.seq = s.seq) ∧ OneWriter i s.snap t.snap := by
  obtain ⟨hu, hc⟩ := exec_operation_next hi he
  obtain ⟨r, hr, ends⟩ := exec_operation_ends hu hc hi
  obtain rfl : t = deliver r := Host.Outcome.next.inj (he.symm.trans hr)
  obtain ⟨c, -, rfl⟩ | ⟨-, ends⟩ := ends
  · exact ⟨fun _ => rfl, .of_eq i rfl⟩
  · refine ⟨fun ha => ?_, ends.oneWriter⟩
    have hs := ends.seq
    rw [useSequence_eq_isAcknowledged hi, ha] at hs
    exact hs

/-! What the procedures do to them. -/

/-- UPLOAD, whose operations have no result, writes no snapshot field. -/
theorem uploadBody_snap (raw idx : List Nat) (exp : Nat) (longer : Bool) (mode : Nat) (rep : Bool) (s : State) :
    (uploadBody raw idx exp longer mode rep s).1.snap = s.snap := by
  have steps : ∀ f ∈ uploadSteps s.params raw idx exp longer mode rep, ∀ u : State, (f u).1.snap = u.snap := by
    simp only [uploadSteps, List.forall_mem_cons, List.not_mem_nil, false_implies, implies_true, and_true]
    refine ⟨?_, ?_, ?_, ?_, ?_, ?_, ?_, opMboxClose_snap, ?_, ?_, ?_, opMboxClose_snap⟩
    all_goals exact operation_noResult_snap _ _ _
  unfold uploadBody
  cases preflight raw idx mode with
  | some c => rfl
  | none =>
    exact runSteps_keeps (fun u => u.snap = s.snap) (fun _ _ h => h) _ (fun f hf u hu => (steps f hf u).trans hu)
      0 (setUstep 0 s) rfl

/-- VALIDATE sends no class A packet and caches nothing. -/
theorem validateBody_registersKept (n : Nat) (s : State) : RegistersKept s (validateBody n s).1 := by
  have start : RegistersKept s (opValidStart (setUstep 0 s)).1 := (opValidStart_ends (setUstep 0 s)).registersKept rfl
  show RegistersKept s ((opValidStart (setUstep 0 s)).andThen fun u _ => validateAttempts 1 n u).1
  generalize opValidStart (setUstep 0 s) = r at start ⊢
  obtain ⟨u, e | v⟩ := r
  · exact start
  · refine validateAttempts_keeps (RegistersKept s) (fun _ _ h => h) (fun u h => ?_) (fun u h => ?_) n 1 u start
    · exact ⟨(sampleCancel_seq u).trans h.1, (sampleCancel_snap u).trans h.2⟩
    · obtain ⟨hs, hn⟩ := (opValidGet_ends u).registersKept rfl
      exact ⟨hs.trans h.1, hn.trans h.2⟩

/-- POLLSTAT sends no class A packet and writes the fields of its three queries. -/
theorem pollBody_registers (retries : Option Nat) (s : State) :
    (pollBody retries s).1.seq = s.seq ∧ OneWriter (.pollstat retries) s.snap (pollBody retries s).1.snap := by
  have query {i : Instr} {op : Op} {u : State} {r : Res Value} (h : OperationEnds (SnapWrites i) op [] u r)
      (hc : op.cls.useSequence = false) (hi : i = .hwstatGet ∨ i = .sysstatGet ∨ i = .mainstatGet)
      (hu : u.seq = s.seq ∧ OneWriter (.pollstat retries) s.snap u.snap) :
      r.1.seq = s.seq ∧ OneWriter (.pollstat retries) s.snap r.1.snap :=
    ⟨by rw [h.seq, hc]; exact hu.1, hu.2.trans (h.oneWriter.mono (writes_pollstat hi retries))⟩
  refine pollAttempts_keeps (fun u => u.seq = s.seq ∧ OneWriter (.pollstat retries) s.snap u.snap) (fun _ _ h => h)
    (fun u h => ?_) ?_ _ 1 (setUstep 0 s) ⟨rfl, .of_eq _ rfl⟩
  · rw [sampleCancel_seq, sampleCancel_snap]
    exact h
  · simp only [statusQueries, List.forall_mem_cons, List.not_mem_nil, false_implies, implies_true, and_true]
    exact ⟨fun u => query (opHwstatGet_ends u) rfl (.inl rfl), fun u => query (opSysstatGet_ends u) rfl (.inr (.inl rfl)),
      fun u => query (opMainstatGet_ends u) rfl (.inr (.inr rfl))⟩

/-! What the other requests do to them. -/

theorem accept_next {body : State → Host.Outcome State Fault Refusal} {s t : State} (h : accept body s = .next t) :
    s.ustep = none ∧ body s = .next t := by
  unfold accept at h
  split at h
  · cases h
  · rename_i hu; exact ⟨Option.not_isSome_iff_eq_none.1 hu, h⟩

/-- ENCODE writes `SEQ` with `useSequence = 1` only, and no snapshot field (40_framer.md R122). -/
theorem execEncode_registers {c2 c3 : Nat} {pl : List Nat} {ro rp us : Bool} {s t : State}
    (h : execEncode c2 c3 pl ro rp us s = .next t) : (us = false → t.seq = s.seq) ∧ t.snap = s.snap := by
  obtain ⟨-, h⟩ := accept_next h
  obtain rfl := Host.Outcome.next.inj h
  exact ⟨fun hu => by subst hu; rfl, rfl⟩

theorem execDecode_registersKept {p : List Byte} {s t : State} (h : execDecode p s = .next t) : RegistersKept s t := by
  obtain ⟨-, h⟩ := accept_next h
  split at h
  all_goals
    obtain rfl := Host.Outcome.next.inj h
    exact ⟨rfl, rfl⟩

theorem execConnect_registersKept {s t : State} (h : execConnect s = .next t) : RegistersKept s t := by
  obtain ⟨-, h⟩ := accept_next h
  split at h
  · cases h
  · obtain rfl := Host.Outcome.next.inj h
    unfold connectBody
    cases openAnswer s <;> exact ⟨rfl, rfl⟩

theorem execDisconnect_registersKept {s t : State} (h : execDisconnect s = .next t) : RegistersKept s t := by
  obtain ⟨-, h⟩ := accept_next h
  obtain rfl := Host.Outcome.next.inj h
  unfold disconnectBody
  split <;> exact ⟨rfl, rfl⟩

/-- Settles O53: an operation that carries no `SEQ`, a procedure that sends none, or no packet at all. -/
theorem onlyAcknowledgedPacketsWriteSeq : Obligations.OnlyAcknowledgedPacketsWriteSeq := by
  intro s t i he ha hupload hencode
  cases hi : i.wire s.params with
  | some q => exact (exec_operation_registers hi he).1 ha
  | none =>
    cases i <;> simp only [Instr.wire, reduceCtorEq] at hi
    case encode c2 c3 pl ro rp us =>
      cases us with
      | false => exact (execEncode_registers he).1 rfl
      | true => exact absurd rfl (hencode c2 c3 pl ro rp)
    case decode p => exact (execDecode_registersKept he).1
    case connect => exact (execConnect_registersKept he).1
    case disconnect => exact (execDisconnect_registersKept he).1
    case upload raw idx exp longer mode rep => exact absurd rfl (hupload raw idx exp longer mode rep)
    case validate n =>
      obtain ⟨-, -, rfl⟩ := serveConnected_next he
      exact (validateBody_registersKept n s).1
    case pollstat retries =>
      obtain ⟨-, -, rfl⟩ := serveConnected_next he
      exact (pollBody_registers retries s).1

/-- Every request of the table writes its own snapshot fields at most. -/
theorem exec_oneWriter {i : Instr} {s t : State} (he : exec i s = .next t) : OneWriter i s.snap t.snap := by
  cases hi : i.wire s.params with
  | some q => exact (exec_operation_registers hi he).2
  | none =>
    cases i <;> simp only [Instr.wire, reduceCtorEq] at hi
    case encode c2 c3 pl ro rp us => exact .of_eq _ (execEncode_registers he).2
    case decode p => exact .of_eq _ (execDecode_registersKept he).2
    case connect => exact .of_eq _ (execConnect_registersKept he).2
    case disconnect => exact .of_eq _ (execDisconnect_registersKept he).2
    case upload raw idx exp longer mode rep =>
      obtain ⟨-, -, rfl⟩ := serveConnected_next he
      exact .of_eq _ (uploadBody_snap raw idx exp longer mode rep s)
    case validate n =>
      obtain ⟨-, -, rfl⟩ := serveConnected_next he
      exact .of_eq _ (validateBody_registersKept n s).2
    case pollstat retries =>
      obtain ⟨-, -, rfl⟩ := serveConnected_next he
      exact (pollBody_registers retries s).2

/-- A field that changes changes for the host that reads it. -/
theorem map_ne_map {α : Type} {c : α → Value} (hc : Function.Injective c) {x y : Option α} (h : x ≠ y) :
    x.map c ≠ y.map c := fun he => h (Option.map_injective hc he)

/-- Settles O54, field by field. -/
theorem snapshotFieldsHaveOneWriter : Obligations.SnapshotFieldsHaveOneWriter := by
  intro s t i he
  have writer := exec_oneWriter he
  have byte : Function.Injective Value.byte := fun _ _ => Value.byte.inj
  have bit : Function.Injective Value.bit := fun _ _ => Value.bit.inj
  have source : Function.Injective Value.source := fun _ _ => Value.source.inj
  refine ⟨fun f => (writer f).1, fun h => (writer .hw).2 (map_ne_map byte h), fun h => (writer .sys).2 (map_ne_map byte h),
    fun h => (writer .main).2 (map_ne_map byte h), fun h => (writer .dispmode).2 (map_ne_map bit h),
    fun h => (writer .insrc).2 (map_ne_map source h), ?_⟩
  rintro (h | h | h)
  · exact (writer .ledR).2 (map_ne_map byte h)
  · exact (writer .ledG).2 (map_ne_map byte h)
  · exact (writer .ledB).2 (map_ne_map byte h)

end

end Sys2Proof.Machine

/-! PROOFS. O9 and O10: who may have sent a packet (30_encoding.md R99, R100). Each reader of a payload lists exactly the
requests, of those whose operands are in range, that build it. -/

namespace Sys2Proof

section

/-- The request is well-formed, is the given operation, and builds the given payload (30_encoding.md R99). -/
def Instr.Sends (p : Params) (op : Op) (payload : List Byte) (i : Instr) : Prop :=
  WellFormed i = true ∧ ∃ pl, i.wire p = some (op, pl) ∧ payload = pl.map trunc8

/-! Bytes and the numbers they hold. -/

theorem toNat_trunc8 {v : Nat} (h : v < 256) : (trunc8 v).toNat = v := Nat.mod_eq_of_lt h

/-- A count in 1..256 is one more than the byte it is sent as (43_pattern_config.md R195). -/
theorem toNat_trunc8_count {v : Nat} (h : countFits v = true) : (trunc8 (v + 255)).toNat + 1 = v := by
  simp only [countFits, Bool.and_eq_true, decide_eq_true_eq] at h
  simp only [trunc8, BitVec.toNat_ofNat]
  omega

theorem trunc8_count_toNat (b : Byte) : trunc8 (b.toNat + 1 + 255) = b := by
  apply BitVec.eq_of_toNat_eq
  have := b.isLt
  simp only [trunc8, BitVec.toNat_ofNat]
  omega

theorem countFits_toNat_succ (b : Byte) : countFits (b.toNat + 1) = true := by
  have := b.isLt
  simp only [countFits, Bool.and_eq_true, decide_eq_true_eq]
  omega

theorem le32Value_lt (b0 b1 b2 b3 : Byte) : le32Value b0 b1 b2 b3 < 2 ^ 32 := by
  have := b0.isLt; have := b1.isLt; have := b2.isLt; have := b3.isLt
  simp only [le32Value, le24]
  omega

/-- The four bytes of `LE32(v)` hold `v`. -/
theorem le32Value_trunc8 {v : Nat} (h : v < 2 ^ 32) :
    le32Value (trunc8 v) (trunc8 (v / 256)) (trunc8 (v / 65536)) (trunc8 (v / 16777216)) = v := by
  simp only [le32Value, le24, trunc8, BitVec.toNat_ofNat]
  omega

/-- A number below 4 fits the 2 bits of INSRC_SET (42_source_image_display.md R171). -/
theorem trunc_two {v : Nat} (h : v < 4) : trunc 2 v = v := Nat.mod_eq_of_lt h

/-- The LED bytes are inverted on the wire and inverted back (44_led_gpio.md R232, R234). -/
theorem trunc8_inverted_toNat (b : Byte) : trunc8 (255 - (255 - b.toNat)) = b := by
  rw [Nat.sub_sub_self (Nat.le_of_lt_succ b.isLt), trunc8_toNat]

theorem inverted_toNat_trunc8 {v : Nat} (h : v < 256) : 255 - (trunc8 (255 - v)).toNat = v := by
  rw [toNat_trunc8 (by omega), Nat.sub_sub_self (Nat.le_of_lt_succ h)]

/-- The four flags of GPIO_CFG stand in bits 3, 4, 5 and 7 (44_led_gpio.md R235). -/
theorem gpioConfig_bits (s b d x : Bool) :
    (trunc8 (gpioConfig s b d x)).getLsbD 3 = s ∧ (trunc8 (gpioConfig s b d x)).getLsbD 4 = b ∧
    (trunc8 (gpioConfig s b d x)).getLsbD 5 = d ∧ (trunc8 (gpioConfig s b d x)).getLsbD 7 = x := by
  revert s b d x
  decide

theorem bytesFit_map_toNat (l : List Byte) : bytesFit (l.map BitVec.toNat) = true := by
  simp only [bytesFit, List.all_eq_true, List.mem_map, decide_eq_true_eq]
  rintro _ ⟨b, -, rfl⟩
  exact b.isLt

/-- Numbers that fit a byte come back from the bytes they are sent as. -/
theorem map_toNat_trunc8 {l : List Nat} (h : bytesFit l = true) : (l.map trunc8).map BitVec.toNat = l := by
  simp only [bytesFit, List.all_eq_true, decide_eq_true_eq] at h
  rw [List.map_map]
  exact (List.map_congr_left fun v hv => toNat_trunc8 (h v hv)).trans (List.map_id l)

/-! The readers of a payload. -/

variable {p : Params} {i : Instr} {payload : List Byte}

/-- A choice between the two values of a flag. -/
theorem mem_flags_filter_map {q : Bool → Bool} {mk : Bool → Instr} :
    i ∈ ([false, true].filter q).map mk ↔ ∃ f, q f = true ∧ i = mk f := by
  have hf (f : Bool) : f ∈ [false, true] := by cases f <;> decide
  simp only [List.mem_map, List.mem_filter, hf, true_and, eq_comm]

theorem mem_ofFixed {j : Instr} {want : List Byte} : i ∈ ofFixed j want payload ↔ i = j ∧ payload = want := by
  by_cases h : payload = want <;> simp [ofFixed, h]

theorem mem_ofFlag {mk : Bool → Instr} :
    i ∈ ofFlag mk payload ↔ ∃ f, i = mk f ∧ payload = [trunc8 (flagNat f)] := by
  simp only [ofFlag, mem_flags_filter_map, decide_eq_true_eq, and_comm]

theorem mem_ofNumber {fits : Nat → Bool} {mk : Nat → Instr} :
    i ∈ ofNumber fits mk payload ↔ ∃ v, (v < 256 ∧ fits v = true) ∧ i = mk v ∧ payload = [trunc8 v] := by
  constructor
  · unfold ofNumber
    split
    case h_1 b =>
      split
      · rename_i hf
        intro hi
        exact ⟨b.toNat, ⟨b.isLt, hf⟩, List.mem_singleton.1 hi, by rw [trunc8_toNat]⟩
      · simp
    case h_2 => simp
  · rintro ⟨v, ⟨hv, hf⟩, rfl, rfl⟩
    simp [ofNumber, toNat_trunc8 hv, hf]

theorem mem_ofImgtime : i ∈ ofImgtime payload ↔
    ∃ start count, WellFormed (.imgtimeGet start count) = true ∧ i = .imgtimeGet start count ∧
      payload = [trunc 8 start, trunc 8 count].map trunc8 := by
  constructor
  · unfold ofImgtime
    split
    case h_1 a b =>
      intro hi
      exact ⟨a.toNat, b.toNat, by simp [WellFormed, a.isLt, b.isLt], List.mem_singleton.1 hi, by simp⟩
    case h_2 => simp
  · rintro ⟨start, count, hw, rfl, rfl⟩
    simp only [WellFormed, Bool.and_eq_true, decide_eq_true_eq] at hw
    simp [ofImgtime, toNat_trunc8 hw.1, toNat_trunc8 hw.2]

theorem mem_ofTrigout1 : i ∈ ofTrigout1 p payload ↔
    ∃ f d0 d1, WellFormed (.trigout1Set f d0 d1) = true ∧ i = .trigout1Set f d0 d1 ∧
      payload = (trigout1Payload p f d0 d1).map trunc8 := by
  constructor
  · unfold ofTrigout1
    split
    case h_1 pol a b =>
      rw [mem_flags_filter_map]
      rintro ⟨f, hf, rfl⟩
      refine ⟨f, a.toNat, b.toNat, by simp [WellFormed, a.isLt, b.isLt], rfl, ?_⟩
      simpa [trigout1Payload] using hf
    case h_2 => simp
  · rintro ⟨f, d0, d1, hw, rfl, rfl⟩
    simp only [WellFormed, Bool.and_eq_true, decide_eq_true_eq] at hw
    simp only [trigout1Payload, List.map_cons, List.map_nil, trunc8_trunc, ofTrigout1, mem_flags_filter_map,
      toNat_trunc8 hw.1, toNat_trunc8 hw.2]
    exact ⟨f, by simp, rfl⟩

theorem mem_ofExposure : i ∈ ofExposure payload ↔
    ∃ exp f, WellFormed (.exposureSet exp f) = true ∧ i = .exposureSet exp f ∧
      payload = (exposurePayload exp f).map trunc8 := by
  constructor
  · unfold ofExposure
    split
    case h_1 e0 e1 e2 e3 _ _ _ _ =>
      rw [mem_flags_filter_map]
      rintro ⟨f, hf, rfl⟩
      exact ⟨_, f, decide_eq_true (le32Value_lt e0 e1 e2 e3), rfl, of_decide_eq_true hf⟩
    case h_2 => simp
  · rintro ⟨exp, f, hw, rfl, rfl⟩
    have hexp : exp < 2 ^ 32 := of_decide_eq_true hw
    simp only [exposurePayload, List.map_append, map_trunc8_le32, List.cons_append, List.nil_append, ofExposure,
      le32Value_trunc8 hexp, mem_flags_filter_map]
    exact ⟨f, by simp, rfl⟩

theorem mem_ofLutctl : i ∈ ofLutctl payload ↔
    ∃ e f c g, WellFormed (.lutctlSet e f c g) = true ∧ i = .lutctlSet e f c g ∧
      payload = (lutctlPayload e f c g).map trunc8 := by
  constructor
  · unfold ofLutctl
    split
    case h_1 e r c g =>
      rw [mem_flags_filter_map]
      rintro ⟨f, hf, rfl⟩
      refine ⟨_, f, _, _, by simp [WellFormed, countFits_toNat_succ], rfl, ?_⟩
      simpa [lutctlPayload, trunc8_count_toNat] using hf
    case h_2 => simp
  · rintro ⟨e, f, c, g, hw, rfl, rfl⟩
    simp only [WellFormed, Bool.and_eq_true] at hw
    obtain ⟨⟨he, hc⟩, hg⟩ := hw
    simp only [lutctlPayload, List.map_cons, List.map_nil, trunc8_trunc, ofLutctl, mem_flags_filter_map,
      toNat_trunc8_count he, toNat_trunc8_count hc, toNat_trunc8_count hg]
    exact ⟨f, by simp, rfl⟩

theorem mem_ofLedcur : i ∈ ofLedcur payload ↔
    ∃ r g b f, WellFormed (.ledcurSet r g b f) = true ∧ i = .ledcurSet r g b f ∧
      payload = (ledPayload r g b).map trunc8 := by
  constructor
  · unfold ofLedcur
    split
    case h_1 r g b =>
      rw [mem_flags_filter_map]
      rintro ⟨f, hf, rfl⟩
      refine ⟨_, _, _, f, ?_, rfl, ?_⟩
      · simp only [WellFormed, hf, Bool.and_true, Bool.and_eq_true, decide_eq_true_eq]
        omega
      · simp only [ledPayload, List.map_cons, List.map_nil, trunc8_inverted_toNat]
    case h_2 => simp
  · rintro ⟨r, g, b, f, hw, rfl, rfl⟩
    simp only [WellFormed, Bool.and_eq_true, decide_eq_true_eq] at hw
    obtain ⟨⟨⟨hr, hg⟩, hb⟩, ht⟩ := hw
    simp only [ledPayload, List.map_cons, List.map_nil, ofLedcur, mem_flags_filter_map, inverted_toNat_trunc8 hr,
      inverted_toNat_trunc8 hg, inverted_toNat_trunc8 hb]
    exact ⟨f, ht, rfl⟩

theorem mem_ofGpioCfg : i ∈ ofGpioCfg payload ↔
    ∃ pin s b d x, WellFormed (.gpioCfg pin s b d x) = true ∧ i = .gpioCfg pin s b d x ∧
      payload = [trunc 8 pin, gpioConfig s b d x].map trunc8 := by
  constructor
  · unfold ofGpioCfg
    split
    case h_1 pin cfg =>
      dsimp only
      split
      · rename_i hc
        intro hi
        refine ⟨pin.toNat, _, _, _, _, decide_eq_true pin.isLt, List.mem_singleton.1 hi, ?_⟩
        rw [List.map_cons, List.map_cons, List.map_nil, trunc8_trunc, trunc8_toNat, ← hc]
      · simp
    case h_2 => simp
  · rintro ⟨pin, s, b, d, x, hw, rfl, rfl⟩
    obtain ⟨h3, h4, h5, h7⟩ := gpioConfig_bits s b d x
    simp only [List.map_cons, List.map_nil, trunc8_trunc, ofGpioCfg, h3, h4, h5, h7, if_true,
      toNat_trunc8 (of_decide_eq_true hw), List.mem_singleton]

/-- IDXLIST_WR and PATLUT_WR send their list as it is: a list of bytes is read off its payload (43_pattern_config.md R200,
R201). -/
theorem map_toNat_eq_iff {l : List Nat} (h : bytesFit l = true) :
    l = payload.map BitVec.toNat ↔ payload = (l.map (trunc 8)).map trunc8 := by
  rw [map_trunc8_trunc]
  constructor
  · rintro rfl
    exact (map_trunc8_toNat payload).symm
  · rintro rfl
    exact (map_toNat_trunc8 h).symm

/-! All operations together. -/

/-- Every request that `ofPayload` lists sends the payload, as long as a length field can be true of it. -/
theorem sends_of_mem_ofPayload {op : Op} (hlen : payload.length ≤ 65533) (h : i ∈ ofPayload p op payload) :
    i.Sends p op payload := by
  cases op
  case hwstatGet | sysstatGet | mainstatGet | curbufGet | insrcGet | dispmodeGet | ledenGet | ledpolGet | ledcurGet
      | validGet | swreset | mboxClose | validStart =>
    obtain ⟨rfl, rfl⟩ := mem_ofFixed.1 h
    exact ⟨rfl, _, rfl, by simp [-List.map_map]⟩
  case standbySet | bufswap | buffreezeSet | bufwrdisSet | dispmodeSet =>
    obtain ⟨f, rfl, rfl⟩ := mem_ofFlag.1 h
    exact ⟨rfl, _, rfl, rfl⟩
  case insrcSet =>
    rw [ofPayload, mem_ofNumber] at h
    obtain ⟨v, ⟨-, hf⟩, rfl, rfl⟩ := h
    exact ⟨hf, _, rfl, by rw [trunc_two (of_decide_eq_true hf)]; rfl⟩
  case trigmodeSet | patsrcSet | mboxOpen =>
    rw [ofPayload, mem_ofNumber] at h
    obtain ⟨v, ⟨-, hf⟩, rfl, rfl⟩ := h
    exact ⟨hf, _, rfl, rfl⟩
  case imgload | lutofsSet | gpioGet =>
    rw [ofPayload, mem_ofNumber] at h
    obtain ⟨v, ⟨hv, -⟩, rfl, rfl⟩ := h
    exact ⟨decide_eq_true hv, _, rfl, by simp⟩
  case imgtimeGet =>
    obtain ⟨_, _, hw, rfl, hp⟩ := mem_ofImgtime.1 h
    exact ⟨hw, _, rfl, hp⟩
  case trigout1Set =>
    obtain ⟨_, _, _, hw, rfl, hp⟩ := mem_ofTrigout1.1 h
    exact ⟨hw, _, rfl, hp⟩
  case patseqCtl =>
    simp only [ofPayload, List.mem_map, List.mem_filter, decide_eq_true_eq] at h
    obtain ⟨a, ⟨-, rfl⟩, rfl⟩ := h
    exact ⟨rfl, _, rfl, by simp⟩
  case exposureSet =>
    obtain ⟨_, _, hw, rfl, hp⟩ := mem_ofExposure.1 h
    exact ⟨hw, _, rfl, hp⟩
  case lutctlSet =>
    obtain ⟨_, _, _, _, hw, rfl, hp⟩ := mem_ofLutctl.1 h
    exact ⟨hw, _, rfl, hp⟩
  case ledcurSet =>
    obtain ⟨_, _, _, _, hw, rfl, hp⟩ := mem_ofLedcur.1 h
    exact ⟨hw, _, rfl, hp⟩
  case gpioCfg =>
    obtain ⟨_, _, _, _, _, hw, rfl, hp⟩ := mem_ofGpioCfg.1 h
    exact ⟨hw, _, rfl, hp⟩
  case idxlistWr | patlutWr =>
    obtain rfl := List.mem_singleton.1 h
    exact ⟨by simpa [WellFormed, bytesFit_map_toNat] using hlen, _, rfl,
      (map_toNat_eq_iff (bytesFit_map_toNat payload)).1 rfl⟩

/-- Every request that sends the payload is listed. -/
theorem mem_ofPayload_of_sends {op : Op} (h : i.Sends p op payload) : i ∈ ofPayload p op payload := by
  obtain ⟨hw, pl, hi, rfl⟩ := h
  cases i <;> simp only [Instr.wire, Option.some.injEq, Prod.mk.injEq, reduceCtorEq] at hi
  all_goals obtain ⟨rfl, rfl⟩ := hi
  case hwstatGet | sysstatGet | mainstatGet | curbufGet | insrcGet | dispmodeGet | ledenGet | ledpolGet | ledcurGet
      | validGet | swreset | mboxClose | validStart => exact mem_ofFixed.2 ⟨rfl, by simp [-List.map_map]⟩
  case standbySet f | bufswap f | buffreezeSet f | bufwrdisSet f | dispmodeSet f => exact mem_ofFlag.2 ⟨f, rfl, rfl⟩
  case insrcSet v =>
    have hv : v < 4 := of_decide_eq_true hw
    rw [ofPayload, mem_ofNumber, trunc_two hv]
    exact ⟨v, ⟨by omega, hw⟩, rfl, rfl⟩
  case trigmodeSet v | patsrcSet v | mboxOpen v =>
    have hv : v < 256 := by
      simp only [WellFormed, Bool.or_eq_true, beq_iff_eq, decide_eq_true_eq] at hw
      omega
    rw [ofPayload, mem_ofNumber]
    exact ⟨v, ⟨hv, hw⟩, rfl, rfl⟩
  case imgload v | lutofsSet v | gpioGet v =>
    rw [ofPayload, mem_ofNumber]
    exact ⟨v, ⟨of_decide_eq_true hw, rfl⟩, rfl, by simp⟩
  case imgtimeGet => exact mem_ofImgtime.2 ⟨_, _, hw, rfl, rfl⟩
  case trigout1Set => exact mem_ofTrigout1.2 ⟨_, _, _, hw, rfl, rfl⟩
  case patseqCtl a => exact List.mem_map_of_mem (List.mem_filter.2 ⟨by cases a <;> decide, by simp⟩)
  case exposureSet => exact mem_ofExposure.2 ⟨_, _, hw, rfl, rfl⟩
  case lutctlSet => exact mem_ofLutctl.2 ⟨_, _, _, _, hw, rfl, rfl⟩
  case ledcurSet => exact mem_ofLedcur.2 ⟨_, _, _, _, hw, rfl, rfl⟩
  case gpioCfg => exact mem_ofGpioCfg.2 ⟨_, _, _, _, _, hw, rfl, rfl⟩
  case idxlistWr l | patlutWr l =>
    simp only [WellFormed, Bool.and_eq_true] at hw
    exact List.mem_singleton.2 (congrArg _ ((map_toNat_eq_iff hw.1).2 rfl))

theorem mem_ofPayload {op : Op} (hlen : payload.length ≤ 65533) :
    i ∈ ofPayload p op payload ↔ i.Sends p op payload :=
  ⟨sends_of_mem_ofPayload hlen, mem_ofPayload_of_sends⟩

/-! The packet around the payload. -/

/-- A packet that DECODE accepts has at most 65533 payload bytes: its length field is true (40_framer.md R123). -/
theorem decodeFrame_payload_length {packet : List Byte} {f : Frame} (h : decodeFrame packet = .ok f) :
    f.payload.length ≤ 65533 := by
  unfold decodeFrame at h
  split at h
  case h_1 b0 b1 b2 b3 b4 b5 b6 rest =>
    have := b3.isLt
    have := b4.isLt
    dsimp only at h
    split at h
    · cases h
    split at h
    · cases h
    split at h
    · cases h
    rename_i hl
    obtain rfl := Except.ok.inj h
    simp only [List.length_cons] at hl ⊢
    omega
  case h_2 => cases h

theorem frame_names_iff {f : Frame} {op : Op} :
    f.names p op = true ↔ f.cmd2 = (p.code op).cmd2 ∧ f.cmd3 = (p.code op).cmd3 ∧ f.readonly = op.cls.readonly := by
  simp only [Frame.names, Bool.and_eq_true, beq_iff_eq, and_assoc]

/-- A well-formed operation has a payload that the length field can be true of, under a binding that meets 00_scope.md
R6. -/
theorem wire_payload_length (hp : p.Wf) {op : Op} {pl : List Nat} (hw : WellFormed i = true)
    (hi : i.wire p = some (op, pl)) : pl.length ≤ 65533 := by
  obtain ⟨-, -, -, -, -, -, hstart, -⟩ := hp
  cases i <;> simp only [Instr.wire, Option.some.injEq, Prod.mk.injEq, reduceCtorEq] at hi
  all_goals obtain ⟨-, rfl⟩ := hi
  case validStart => rwa [List.length_map]
  case idxlistWr l | patlutWr l =>
    simp only [WellFormed, Bool.and_eq_true, decide_eq_true_eq] at hw
    rw [List.length_map]
    exact hw.2
  all_goals exact Nat.le_of_ble_eq_true rfl

/-- Settles O9: `mem_candidates` names the operation, `mem_ofPayload` its operands. -/
theorem candidatesAreExactlyTheSenders : Obligations.CandidatesAreExactlyTheSenders := by
  intro p packet f i hf
  rw [mem_candidates hf]
  simp only [mem_ofPayload (decodeFrame_payload_length hf), frame_names_iff]
  constructor
  · rintro ⟨op, ⟨h2, h3, hro⟩, hw, pl, hi, hpl⟩
    exact ⟨hw, op, pl, hi, h2, h3, hro, hpl⟩
  · rintro ⟨hw, op, pl, hi, h2, h3, hro, hpl⟩
    exact ⟨op, ⟨h2, h3, hro⟩, hw, pl, hi, hpl⟩

/-- The packet of an operation is the one the engine sends. -/
theorem encode_of_wire {op : Op} {pl : List Nat} (hi : i.wire p = some (op, pl)) (seq : Byte) :
    encode p seq i = some (opPacket p seq op pl) := by
  simp only [encode, hi]

/-- Settles O10: the packet decodes to the operation's own fields, so the request is one of its senders. -/
theorem encodedOperationIsRecovered : Obligations.EncodedOperationIsRecovered := by
  intro p seq i packet hp hw hop he
  obtain ⟨⟨op, pl⟩, hi⟩ := Option.isSome_iff_exists.1 hop
  obtain rfl : opPacket p seq op pl = packet := Option.some.inj ((encode_of_wire hi seq).symm.trans he)
  have hd := decodeFrame_layout op.cls.readonly (op.cls.reply p.ackReply) (if op.cls.useSequence then seq else 0)
    (p.code op).cmd3 (p.code op).cmd2 (pl.map trunc8) (by rw [List.length_map]; exact wire_payload_length hp hw hi)
  exact (candidatesAreExactlyTheSenders p _ _ i hd).2 ⟨hw, op, pl, hi, rfl, rfl, rfl, rfl⟩

end

end Sys2Proof

/-! PROOFS. O3, O4 and O11: a decoded word runs, and an operation sends the packet that the encoder gives it (30_encoding.md
R100, 40_framer.md R126, R128). -/

namespace Sys2Proof.Machine

section

open Sys2Proof.Claims

/-- The machine's local checks are the conditions of 60_exceptions.md R281. -/
theorem localCheck_eq_rejection {p : Params} {i : Instr} (hi : (i.wire p).isSome = true) : localCheck i = rejection i := by
  cases i
  case trigmodeSet mode => exact checkTrigmode_eq mode
  case patsrcSet src => exact checkPatsrc_eq src
  case mboxOpen fn => exact checkMailbox_eq fn
  case ledcurSet r g b strict => exact checkLed_eq r g b strict
  case upload => cases hi
  all_goals rfl

/-- An operation that passes its local check writes its packet first, and nothing after it. -/
theorem OperationEnds.history {α : Type} {writes : Snapshot → Snapshot → Prop} {op : Op} {pl : List Nat} {s : State}
    {r : Res α} (h : OperationEnds writes op pl s r) :
    ∃ rest, r.1.history =
        s.history ++ .wrote (opPacket s.params s.seq op pl) (writeAnswer (opPacket s.params s.seq op pl) s) :: rest ∧
      packetsWritten rest = [] := by
  cases h with
  | writeFailed | silent => exact ⟨[], sent_history op pl s, rfl⟩
  | readFailed | answered | underrun => exact ⟨_, afterRead_sent_history op pl s, rfl⟩

/-- Settles O11. -/
theorem operationSendsItsEncoding : Obligations.OperationSendsItsEncoding := by
  rintro s i ⟨hu, hc⟩ hop hrej
  obtain ⟨⟨op, pl⟩, hi⟩ := Option.isSome_iff_exists.1 hop
  obtain ⟨r, he, ⟨c, hl, -⟩ | ⟨-, ends⟩⟩ := exec_operation_ends hu hc hi
  · rw [localCheck_eq_rejection hop, hrej] at hl
    cases hl
  · obtain ⟨rest, hh, hw⟩ := ends.history
    exact ⟨_, _, rest, he, encode_of_wire hi s.seq, hh, hw⟩

/-- An operation answers a next state on an idle connected block, whatever its operands are (60_exceptions.md R292). -/
theorem exec_operation_answers {s : State} {i : Instr} (hu : s.ustep = none) (hc : s.connected = true)
    (hi : IsOperation s.params i) : ∃ t, exec i s = .next t := by
  obtain ⟨⟨op, pl⟩, hi⟩ := Option.isSome_iff_exists.1 hi
  obtain ⟨r, he, -⟩ := exec_operation_ends hu hc hi
  exact ⟨_, he⟩

theorem execEncode_answers {c2 c3 : Nat} {pl : List Nat} {ro rp us : Bool} {s : State} (hu : s.ustep = none) :
    ∃ t, execEncode c2 c3 pl ro rp us s = .next t := ⟨_, accept_idle _ hu⟩

theorem execDecode_answers {bytes : List Byte} {s : State} (hu : s.ustep = none) :
    ∃ t, execDecode bytes s = .next t := by
  rw [execDecode, accept_idle _ hu]
  cases decodeFrame bytes with
  | ok f => exact ⟨_, rfl⟩
  | error c => exact ⟨_, rfl⟩

/-- Whoever is among the candidates of a byte string is an operation. -/
theorem isOperation_of_mem_candidates {p : Params} {bytes : List Byte} {i : Instr} (h : i ∈ candidates p bytes) :
    IsOperation p i := by
  cases hf : decodeFrame bytes with
  | error c => simp [candidates, hf] at h
  | ok f =>
    obtain ⟨-, op, pl, hi, -⟩ := (candidatesAreExactlyTheSenders p bytes f i hf).1 h
    exact Option.isSome_of_eq_some hi

theorem encode_of_ofRawPacket {bytes : List Byte} {i : Instr} (h : ofRawPacket bytes = some i) :
    ∃ c2 c3 pl ro rp us, i = .encode c2 c3 pl ro rp us := by
  unfold ofRawPacket at h
  split at h
  · split at h
    · exact ⟨_, _, _, _, _, _, (Option.some.inj h).symm⟩
    · cases h
  · cases h

theorem decode_of_ofByteString {bytes : List Byte} {i : Instr} (h : ofByteString bytes = some i) :
    ∃ q, i = .decode q := by
  unfold ofByteString at h
  split at h
  · exact ⟨_, (Option.some.inj h).symm⟩
  · cases h

/-- A request read from a word is an operation, a raw framer call or a DECODE (log 15). -/
theorem tableRequest_cases {p : Params} {bytes : List Byte} {i : Instr} (h : tableRequest p bytes = some i) :
    IsOperation p i ∨ (∃ c2 c3 pl ro rp us, i = .encode c2 c3 pl ro rp us) ∨ ∃ q, i = .decode q := by
  simp only [tableRequest, Option.orElse_eq_orElse, Option.orElse_eq_or, Option.or_eq_some_iff] at h
  obtain h | ⟨-, h | ⟨-, h⟩⟩ := h
  · exact .inl (isOperation_of_mem_candidates (List.mem_of_mem_head? h))
  · exact .inr (.inl (encode_of_ofRawPacket h))
  · exact .inr (.inr (decode_of_ofByteString h))

/-- Settles O3. -/
theorem stepRunsTheDecodedWord : Obligations.StepRunsTheDecodedWord := by
  intro s nbits w i h
  have hr : (s.withFetchWord nbits w).requests = .run i :: s.requests := by
    rw [State.withFetchWord, present_requests, linked_requests, requestOfWord, h]
  refine ⟨step_of_requests hr, ?_⟩
  show ∃ t, exec i (linked s) = .next t
  obtain hop | ⟨_, _, _, _, _, _, rfl⟩ | ⟨_, rfl⟩ := tableRequest_cases h
  · exact exec_operation_answers rfl rfl hop
  · exact execEncode_answers rfl
  · exact execDecode_answers rfl

/-- Settles O4: each packet is short enough to be decoded by evaluation. -/
theorem specPacketsDecode : Obligations.SpecPacketsDecode := by
  unfold Obligations.SpecPacketsDecode
  decide

end

end Sys2Proof.Machine

/-! PROOFS. O5 to O8: the framer primitives on an idle block, and the packet they build and read (40_framer.md R120 to
R125). -/

namespace Sys2Proof.Machine

section

open Sys2Proof.Claims

/-! The packet. -/

/-- The two flags stand in bits 7 and 6, so that they add up (30_encoding.md R83). -/
theorem flagsByte_eq_add (ro rp : Bool) :
    flagsByte ro rp = (if ro then 0x80 else 0x00) + (if rp then 0x40 else 0x00) := by
  cases ro <;> cases rp <;> decide

/-- The model's layout is the packet of 30_encoding.md R80. -/
theorem layout_eq_packetOf (ro rp : Bool) (seq c3 c2 : Byte) (pl : List Byte) :
    layout ro rp seq c3 c2 pl =
      packetOf ((if ro then 0x80 else 0x00) + (if rp then 0x40 else 0x00)) seq ⟨c2, c3⟩ pl := by
  rw [layout_eq, flagsByte_eq_add]
  rfl

theorem layout_drop_header (ro rp : Bool) (seq c3 c2 : Byte) (pl : List Byte) :
    (layout ro rp seq c3 c2 pl).drop 7 = pl := by
  rw [layout_eq]
  rfl

/-- Byte 2 of a packet is its sequence number. -/
theorem layout_byte_two (ro rp : Bool) (seq c3 c2 : Byte) (pl : List Byte) :
    byteAt (layout ro rp seq c3 c2 pl) 2 = seq := by
  rw [layout_eq]
  rfl

/-- The length field counts the bytes after it, modulo 65536 (30_encoding.md R85). -/
theorem layout_length_field (ro rp : Bool) (seq c3 c2 : Byte) (pl : List Byte) :
    (byteAt (layout ro rp seq c3 c2 pl) 3).toNat + 256 * (byteAt (layout ro rp seq c3 c2 pl) 4).toNat =
      (pl.length + 2) % 65536 := by
  rw [layout_eq]
  exact length_bytes_value (pl.length + 2)

/-! DECODE by offset. -/

theorem decodeFrame_short {p : List Byte} (h : p.length < 7) : decodeFrame p = .error .short := by
  unfold decodeFrame
  split
  · simp only [List.length_cons] at h
    omega
  · rfl

/-- A byte string with a whole header is judged by its report id and its length field (40_framer.md R123). -/
theorem decodeFrame_whole {p : List Byte} (h : 7 ≤ p.length) :
    decodeFrame p =
      if byteAt p 0 ≠ 0x00 then .error .reportid
      else if (byteAt p 3).toNat + 256 * (byteAt p 4).toNat < 2 then .error .length
      else if p.length ≠ 5 + ((byteAt p 3).toNat + 256 * (byteAt p 4).toNat) then .error .length
      else .ok { readonly := (byteAt p 1).getLsbD 7, reply := (byteAt p 1).getLsbD 6, seq := byteAt p 2,
                 cmd3 := byteAt p 5, cmd2 := byteAt p 6, payload := p.drop 7 } := by
  match p, h with
  | _ :: _ :: _ :: _ :: _ :: _ :: _ :: _, _ => rfl

/-! The two requests. -/

/-- ENCODE on an idle block is always Ok (40_framer.md R120). -/
theorem execEncode_idle {c2 c3 : Nat} {pl : List Nat} {ro rp us : Bool} {s : State} (hu : s.ustep = none) :
    execEncode c2 c3 pl ro rp us s =
      ends { s with tx := [], rx := [], seq := if us then s.seq + 1 else s.seq }
        (.ok (.packet (layout ro rp (nextSeq us s) (trunc8 c3) (trunc8 c2) (pl.map trunc8)))) :=
  accept_idle _ hu

theorem execDecode_ok {p : List Byte} {f : Frame} {s : State} (hu : s.ustep = none) (h : decodeFrame p = .ok f) :
    execDecode p s = ends s (.ok (.frame f)) := by
  rw [execDecode, accept_idle _ hu, h]
  rfl

theorem execDecode_error {p : List Byte} {c : FrameCause} {s : State} (hu : s.ustep = none)
    (h : decodeFrame p = .error c) : execDecode p s = ends s (.error (.frameError c)) := by
  rw [execDecode, accept_idle _ hu, h]
  rfl

/-- Settles O5. -/
theorem encodeBuildsThePacket : Obligations.EncodeBuildsThePacket := by
  intro s c2 c3 pl ro rp us hu
  exact (execEncode_idle hu).trans (by rw [layout_eq_packetOf]; rfl)

/-- Settles O6, in the order in which DECODE judges the bytes. -/
theorem decodeReturnsFieldsOrFrameError : Obligations.DecodeReturnsFieldsOrFrameError := by
  intro s p hu
  refine ⟨fun h => execDecode_error hu (decodeFrame_short h), fun h hid => execDecode_error hu ?_,
    fun h hid => ⟨fun hlen => execDecode_error hu ?_, fun h2 hlen => execDecode_ok hu ?_⟩⟩
  · rw [decodeFrame_whole h, if_pos hid]
  · rw [decodeFrame_whole h, if_neg (not_not.2 hid)]
    split
    · rfl
    · next h2 => exact if_pos (hlen.resolve_left h2)
  · rw [decodeFrame_whole h, if_neg (not_not.2 hid), if_neg (not_lt.2 h2), if_neg (not_not.2 hlen)]

/-- Settles O8. -/
theorem lengthFieldWrapsAbove65533 : Obligations.LengthFieldWrapsAbove65533 := fun ro rp seq c3 c2 pl =>
  ⟨layout_length ro rp seq c3 c2 pl, layout_drop_header ro rp seq c3 c2 pl, layout_length_field ro rp seq c3 c2 pl,
    decodeFrame_layout ro rp seq c3 c2 pl, decodeFrame_layout_wrapped ro rp seq c3 c2 pl⟩

/-- Settles O7: the state after ENCODE is idle again, its packet decodes to the fields as narrowed, and operands in range
are not changed by narrowing. -/
theorem encodeThenDecodeRecoversTheFields : Obligations.EncodeThenDecodeRecoversTheFields := by
  intro s c2 c3 pl ro rp us hu h2 h3 hb hlen
  have fits : bytesFit pl = true := by simpa [bytesFit] using hb
  have decoded := decodeFrame_layout ro rp (nextSeq us s) (trunc8 c3) (trunc8 c2) (pl.map trunc8)
    (by rwa [List.length_map])
  exact ⟨_, _, _, _, execEncode_idle hu, rfl, execDecode_ok hu decoded, rfl, toNat_trunc8 h2, toNat_trunc8 h3,
    map_toNat_trunc8 fits, rfl, rfl, rfl⟩

end

end Sys2Proof.Machine

/-! PROOFS. O51 and O52: the accesses of an operation by how it ends, and the sequence numbers of a run of operations
(40_framer.md R133, R134). -/

namespace Sys2Proof.Machine

section

open Sys2Proof.Claims

/-- Settles O51, along the ways an operation can end. -/
theorem accessCountsByOutcome : Obligations.AccessCountsByOutcome := by
  intro s t i hop he
  obtain ⟨⟨op, pl⟩, hi⟩ := Option.isSome_iff_exists.1 hop
  obtain ⟨hu, hc⟩ := exec_operation_next hi he
  obtain ⟨r, hr, ends⟩ := exec_operation_ends hu hc hi
  obtain rfl : t = deliver r := Host.Outcome.next.inj (he.symm.trans hr)
  obtain ⟨c, -, rfl⟩ | ⟨-, ends⟩ := ends
  · exact ⟨[], (List.append_nil _).symm, .inr (.inl ⟨⟨c, rfl⟩, rfl⟩)⟩
  · cases ends with
    | writeFailed => exact ⟨_, sent_history op pl s, .inr (.inr (.inl ⟨rfl, rfl⟩))⟩
    | readFailed => exact ⟨_, afterRead_sent_history op pl s, .inr (.inr (.inr (.inl ⟨rfl, rfl⟩)))⟩
    | silent v hw hk => exact ⟨_, sent_history op pl s, .inl ⟨⟨v, rfl⟩, op, pl, hi, by rw [hk]; rfl⟩⟩
    | answered r snap v hw hk => exact ⟨_, afterRead_sent_history op pl s, .inl ⟨⟨v, rfl⟩, op, pl, hi, by rw [hk]; rfl⟩⟩
    | underrun => exact ⟨_, afterRead_sent_history op pl s, .inr (.inr (.inr (.inr ⟨rfl, rfl⟩)))⟩

/-! The sequence numbers of a run, one operation at a time. -/

theorem acknowledgedCount_cons (i : Instr) (is : List Instr) :
    acknowledgedCount (i :: is) = acknowledgedCount [i] + acknowledgedCount is :=
  List.countP_append (l₁ := [i]) (l₂ := is)

/-- An operation rejected by its local check sends nothing. -/
theorem run_rejected {i : Instr} {c : ConfigCause} (h : rejection i = some c) :
    (∀ S, byte2Run S [i] = []) ∧ acknowledgedCount [i] = 0 := by
  simp [byte2Run, acknowledgedCount, h]

/-- An operation that passes its check sends one packet, which carries and advances `SEQ` in class A. -/
theorem run_sent {i : Instr} (h : rejection i = none) :
    (∀ S, byte2Run S [i] = [if isAcknowledged i then S else 0]) ∧
    acknowledgedCount [i] = if isAcknowledged i then 1 else 0 := by
  cases ha : isAcknowledged i <;> simp [byte2Run, acknowledgedCount, h, ha]

/-- The run after one operation goes on from the `SEQ` it leaves. -/
theorem byte2Run_cons (S : Byte) (i : Instr) (is : List Instr) :
    byte2Run S (i :: is) = byte2Run S [i] ++ byte2Run (S + BitVec.ofNat 8 (acknowledgedCount [i])) is := by
  cases h : rejection i with
  | some c =>
    obtain ⟨hb, hn⟩ := run_rejected h
    rw [hb, hn]
    simp [byte2Run, h]
  | none =>
    obtain ⟨hb, hn⟩ := run_sent h
    rw [hb, hn]
    cases ha : isAcknowledged i <;> simp [byte2Run, h, ha]

/-- Byte 2 of an operation's packet is `SEQ` in class A, else 0 (40_framer.md R122). -/
theorem opPacket_byte_two (p : Params) (seq : Byte) (op : Op) (pl : List Nat) :
    byteAt (opPacket p seq op pl) 2 = if op.cls.useSequence then seq else 0 := layout_byte_two _ _ _ _ _ _

/-- No operation opens or closes the connection. -/
theorem OperationEnds.connected {α : Type} {writes : Snapshot → Snapshot → Prop} {op : Op} {pl : List Nat} {s : State}
    {r : Res α} (h : OperationEnds writes op pl s r) : r.1.connected = s.connected := by
  cases h <;> rfl

/-- `t` comes after the operations `is` from `s`: the packets in between carry the numbers of the run, and `SEQ` has
advanced by the number of class A packets (40_framer.md R133). -/
def Counted (s t : State) (is : List Instr) : Prop :=
  ∃ new, t.history = s.history ++ new ∧ (packetsWritten new).map (byteAt · 2) = byte2Run s.seq is ∧
    t.seq = s.seq + BitVec.ofNat 8 (acknowledgedCount is)

theorem Counted.nil (s : State) : Counted s s [] := ⟨[], (List.append_nil _).symm, rfl, (BitVec.add_zero _).symm⟩

theorem Counted.cons {s t u : State} {i : Instr} {is : List Instr} (h : Counted s t [i]) (h' : Counted t u is) :
    Counted s u (i :: is) := by
  obtain ⟨new, hh, hb, hs⟩ := h
  obtain ⟨new', hh', hb', hs'⟩ := h'
  refine ⟨new ++ new', by rw [hh', hh, List.append_assoc], ?_, ?_⟩
  · rw [packetsWritten_append, List.map_append, hb, hb', hs, byte2Run_cons s.seq i is]
  · rw [hs', hs, acknowledgedCount_cons i is, BitVec.ofNat_add, BitVec.add_assoc]

/-- One operation: nothing is sent when its check rejects it, else one packet, numbered in class A (40_framer.md R122). -/
theorem exec_operation_counted {s t : State} {i : Instr} (hop : IsOperation s.params i) (hready : Ready s)
    (he : exec i s = .next t) : t.connected = s.connected ∧ Counted s t [i] := by
  obtain ⟨⟨op, pl⟩, hi⟩ := Option.isSome_iff_exists.1 hop
  obtain ⟨hu, hc⟩ := hready
  obtain ⟨r, hr, ends⟩ := exec_operation_ends hu hc hi
  obtain rfl : t = deliver r := Host.Outcome.next.inj (he.symm.trans hr)
  rw [localCheck_eq_rejection hop] at ends
  obtain ⟨c, hrej, rfl⟩ | ⟨hrej, ends⟩ := ends
  · obtain ⟨hb, hn⟩ := run_rejected hrej
    exact ⟨rfl, [], (List.append_nil _).symm, (hb s.seq).symm, by rw [hn]; exact (BitVec.add_zero _).symm⟩
  · obtain ⟨rest, hh, hw⟩ := ends.history
    obtain ⟨hb, hn⟩ := run_sent hrej
    have numbered := useSequence_eq_isAcknowledged hi
    refine ⟨ends.connected, _, hh, ?_, ends.seq.trans ?_⟩
    · show byteAt (opPacket s.params s.seq op pl) 2 :: (packetsWritten rest).map (byteAt · 2) = _
      rw [opPacket_byte_two, hw, hb, numbered]
      rfl
    · rw [hn, numbered]
      cases isAcknowledged i with
      | true => rfl
      | false => exact (BitVec.add_zero _).symm

/-- Settles O52, by induction on the operations: each leaves the block ready for the next. -/
theorem counterRunsOverOperations : Obligations.CounterRunsOverOperations := by
  intro is
  induction is with
  | nil =>
    intro s t _ _ h
    obtain rfl := Option.some.inj h
    exact Counted.nil s
  | cons i is ih =>
    intro s u hready hops h
    obtain ⟨hi, his⟩ := List.forall_mem_cons.1 hops
    obtain ⟨t, he⟩ := exec_operation_answers hready.1 hready.2 hi
    obtain ⟨hc, counted⟩ := exec_operation_counted hi hready he
    obtain ⟨-, hp, -⟩ := exec_continues he
    rw [serveAll_cons, he] at h
    exact counted.cons (ih t u ⟨exec_ustep he, hc.trans hready.2⟩ (hp ▸ his) h)

end

end Sys2Proof.Machine

/-! PROOFS. O12 to O14, O21 and O22: the status, reset and buffer operations and the flag writes
(41_status_power_buffer.md). Each law is proved once for its framing class; an operation is then its meaning written as
an instance of the class. -/

namespace Sys2Proof.Machine

section

open Sys2Proof.Claims

/-! The packet of a class and the state after it was sent (30_encoding.md R90). -/

theorem opPacket_query {op : Op} (hq : op.cls = .q) (pl : List Nat) (s : State) :
    opPacket s.params s.seq op pl = queryPacket s op (pl.map trunc8) := by
  rw [opPacket, hq, layout_eq_packetOf]
  rfl

theorem opPacket_fire {op : Op} (hf : op.cls = .f) (pl : List Nat) (s : State) :
    opPacket s.params s.seq op pl = firePacket s op (pl.map trunc8) := by
  rw [opPacket, hf, layout_eq_packetOf]
  rfl

/-- Outside class A a packet leaves `SEQ` alone (40_framer.md R122). -/
theorem sent_unnumbered {op : Op} (h : op.cls.useSequence = false) (pl : List Nat) (s : State) :
    sent op pl s = afterWrite s (opPacket s.params s.seq op pl) := by
  rw [sent, h]
  rfl

theorem useSequence_query {op : Op} (hq : op.cls = .q) : op.cls.useSequence = false := by
  rw [hq]
  rfl

theorem useSequence_fire {op : Op} (hf : op.cls = .f) : op.cls.useSequence = false := by
  rw [hf]
  rfl

theorem reply_query {op : Op} (hq : op.cls = .q) (ack : Bool) : op.cls.reply ack = true :=
  (reply_eq _ _).2 (.inl hq)

theorem reply_fire {op : Op} (hf : op.cls = .f) (ack : Bool) : op.cls.reply ack = false := by
  rw [hf]
  rfl

/-! Class F. -/

/-- A class F operation that no local check guards writes its packet, reads nothing and changes no register. -/
theorem fireEffect {i : Instr} {op : Op} {pl : List Nat} {payload : List Byte} {s : State} (hready : Ready s)
    (hf : op.cls = .f) (he : exec i s = serveConnected (operation none op pl noResult) s)
    (hp : pl.map trunc8 = payload) : FireEffect i s (firePacket s op payload) := by
  obtain ⟨hu, hc⟩ := hready
  subst hp
  rw [FireEffect, he, serveConnected_ready _ hu hc, ← opPacket_fire hf, ← sent_unnumbered (useSequence_fire hf)]
  refine ⟨fun hw => ?_, fun hw => ?_⟩
  · rw [operation_silent hw (reply_fire hf _)]
    rfl
  · rw [operation_write_failed _ hw]
    rfl

theorem trunc8_flagNat (f : Bool) : trunc8 (flagNat f) = flag f := by
  cases f <;> rfl

/-- A class F operation whose payload is one flag sends the byte 0 or 1. -/
theorem fireEffect_flag {i : Instr} {op : Op} {f : Bool} {s : State} (hready : Ready s) (hf : op.cls = .f)
    (he : exec i s = serveConnected (operation none op [flagNat f] noResult) s) :
    FireEffect i s (firePacket s op [flag f]) :=
  fireEffect hready hf he (congrArg ([·]) (trunc8_flagNat f))

/-! Class Q. -/

/-- The parser of a query: what `find` finds in the response is stored in the snapshot and answered. -/
def storing {α : Type} (find : List Byte → Option α) (store : α → Snapshot → Snapshot) (value : α → Value) (s : State) :
    Res Value :=
  parsed (find s.rx) (fun a s => ({ s with snap := store a s.snap }, value a)) s

theorem storing_found {α : Type} {find : List Byte → Option α} {s : State} {a : α} (h : find s.rx = some a)
    (store : α → Snapshot → Snapshot) (value : α → Value) :
    storing find store value s = ({ s with snap := store a s.snap }, .ok (value a)) := by
  rw [storing, h, parsed_some]

theorem storing_underrun {α : Type} {find : List Byte → Option α} {s : State} (h : find s.rx = none)
    (store : α → Snapshot → Snapshot) (value : α → Value) :
    storing find store value s = (s, .error .responseUnderrun) := by
  rw [storing, h, parsed_none]

section

variable {α : Type} {i : Instr} {op : Op} {pl : List Nat} {payload : List Byte} {find : List Byte → Option α}
  {store : α → Snapshot → Snapshot} {value : α → Value} {s : State}

/-- A query whose parser finds nothing in less than `need` bytes stores nothing when it does not end Ok. -/
theorem queryFailures {need : Nat} (hready : Ready s) (hq : op.cls = .q)
    (he : exec i s = serveConnected (operation none op pl (storing find store value)) s)
    (hp : pl.map trunc8 = payload) (short : ∀ r, r.length < need → find r = none) :
    QueryFailures i s (queryPacket s op payload) need := by
  obtain ⟨hu, hc⟩ := hready
  have hk := reply_query hq s.params.ackReply
  subst hp
  rw [QueryFailures, he, serveConnected_ready _ hu hc, ← opPacket_query hq]
  simp only [QueryStops, Answers, afterQuery, ← sent_unnumbered (useSequence_query hq)]
  refine ⟨fun hw => ?_, fun hw hr => ?_, fun r ⟨hw, hr⟩ hlen => ?_⟩
  · rw [operation_write_failed _ hw]
    rfl
  · rw [operation_read_failed _ hw hk hr]
    rfl
  · rw [operation_answered _ hw hk hr, storing_underrun (s := answered op pl s r) (short r hlen)]
    rfl

/-- A query whose parser finds its result in the response stores it and answers it. -/
theorem exec_query_answered {a : α} {r : List Byte} (hready : Ready s) (hq : op.cls = .q)
    (he : exec i s = serveConnected (operation none op pl (storing find store value)) s)
    (hp : pl.map trunc8 = payload) (hans : Answers s (queryPacket s op payload) r) (found : find r = some a) :
    exec i s = ends { afterQuery s (queryPacket s op payload) with snap := store a s.snap } (.ok (value a)) := by
  obtain ⟨hu, hc⟩ := hready
  obtain ⟨hw, hr⟩ := hans
  subst hp
  rw [← opPacket_query hq] at hw hr ⊢
  rw [afterQuery]
  rw [← sent_unnumbered (useSequence_query hq)] at hr ⊢
  rw [he, serveConnected_ready _ hu hc, operation_answered _ hw (reply_query hq _) hr,
    storing_found (s := answered op pl s r) found]
  rfl

end

/-! The result at offset 4 (40_framer.md R132). -/

theorem rxByte_result (h0 h1 h2 h3 v : Byte) (rest : List Byte) :
    rxByte (h0 :: h1 :: h2 :: h3 :: v :: rest) resultOffset = some v := rxByte_eq _ _

theorem rxBits_short {rx : List Byte} {off : Nat} (k : Nat) (h : rx.length < off + 1) : rxBits rx off k = none := by
  rw [rxBits, rxByte_short h, Option.map_none]

/-- The low bits of the byte at offset 4, of which it has at most 8. -/
theorem rxBits_result {k : Nat} (hk : k ≤ 8) (h0 h1 h2 h3 v : Byte) (rest : List Byte) :
    rxBits (h0 :: h1 :: h2 :: h3 :: v :: rest) resultOffset k = some (v.extractLsb' 0 k) := by
  rw [rxBits, rxByte_result, Option.map_some, BitVec.setWidth_eq_extractLsb' hk]

/-- A query whose result is the whole byte at offset 4, and how it ends on a response without that byte. -/
theorem queryEffect_byte {i : Instr} {op : Op} {store : Byte → Snapshot → Snapshot} {s : State} (hready : Ready s)
    (hq : op.cls = .q)
    (he : exec i s = serveConnected (operation none op [] (storing (rxByte · resultOffset) store .byte)) s) :
    QueryFailures i s (queryPacket s op []) 5 ∧
    ∀ (h0 h1 h2 h3 v : Byte) (rest : List Byte),
      Answers s (queryPacket s op []) (h0 :: h1 :: h2 :: h3 :: v :: rest) →
      exec i s = ends { afterQuery s (queryPacket s op []) with snap := store v s.snap } (.ok (.byte v)) :=
  ⟨queryFailures hready hq he rfl fun _ => rxByte_short,
    fun h0 h1 h2 h3 v rest hans => exec_query_answered hready hq he rfl hans (rxByte_result h0 h1 h2 h3 v rest)⟩

/-! The meanings of the four queries of 41_status_power_buffer.md as queries with a storing parser. -/

theorem exec_hwstatGet (s : State) :
    exec .hwstatGet s = serveConnected (operation none .hwstatGet []
      (storing (rxByte · resultOffset) (fun v snap => { snap with hw := some v }) .byte)) s := rfl

theorem exec_sysstatGet (s : State) :
    exec .sysstatGet s = serveConnected (operation none .sysstatGet []
      (storing (rxByte · resultOffset) (fun v snap => { snap with sys := some v }) .byte)) s := rfl

theorem exec_mainstatGet (s : State) :
    exec .mainstatGet s = serveConnected (operation none .mainstatGet []
      (storing (rxByte · resultOffset) (fun v snap => { snap with main := some v }) .byte)) s := rfl

theorem exec_curbufGet (s : State) :
    exec .curbufGet s = serveConnected (operation none .curbufGet []
      (storing (rxBits · resultOffset 1) (fun _ snap => snap) .bit)) s := rfl

/-! The obligations. -/

/-- Settles O12. -/
theorem hwstatGetStoresTheStatusByte : Obligations.HwstatGetStoresTheStatusByte := fun s hready =>
  queryEffect_byte hready rfl (exec_hwstatGet s)

/-- Settles O13. -/
theorem sysstatAndMainstatStoreTheirByte : Obligations.SysstatAndMainstatStoreTheirByte := fun s hready =>
  ⟨queryEffect_byte hready rfl (exec_sysstatGet s), queryEffect_byte hready rfl (exec_mainstatGet s)⟩

/-- Settles O14: the parser that finds one bit stores nothing. -/
theorem curbufGetReturnsBitZero : Obligations.CurbufGetReturnsBitZero := fun s hready =>
  ⟨queryFailures hready rfl (exec_curbufGet s) rfl fun _ => rxBits_short 1,
    fun h0 h1 h2 h3 v rest hans =>
      exec_query_answered hready rfl (exec_curbufGet s) rfl hans (rxBits_result (by decide) h0 h1 h2 h3 v rest)⟩

/-- Settles O21. -/
theorem swresetChangesNoRegister : Obligations.SwresetChangesNoRegister := fun s hready =>
  fireEffect hready rfl rfl (congrArg ([·]) (trunc8_toNat s.params.swresetByte))

/-- Settles O22. -/
theorem flagWritesSendTheFlag : Obligations.FlagWritesSendTheFlag := fun _ _ hready =>
  ⟨fireEffect_flag hready rfl rfl, fireEffect_flag hready rfl rfl, fireEffect_flag hready rfl rfl,
    fireEffect_flag hready rfl rfl, fireEffect_flag hready rfl rfl⟩

end

end Sys2Proof.Machine

/-! PROOFS. O15, O16 and O23: input source, image load and display mode (42_source_image_display.md), as instances of the
laws of classes Q and F. -/

namespace Sys2Proof.Machine

section

open Sys2Proof.Claims

/-! Queries of low bits at offset 4. -/

/-- A query whose result is the low `k` bits of the byte at offset 4, and how it ends on a response without that byte. -/
theorem queryEffect_bits {i : Instr} {op : Op} {k : Nat} {store : BitVec k → Snapshot → Snapshot}
    {value : BitVec k → Value} {s : State} (hk : k ≤ 8) (hready : Ready s) (hq : op.cls = .q)
    (he : exec i s = serveConnected (operation none op [] (storing (rxBits · resultOffset k) store value)) s) :
    QueryFailures i s (queryPacket s op []) 5 ∧
    ∀ (h0 h1 h2 h3 v : Byte) (rest : List Byte),
      Answers s (queryPacket s op []) (h0 :: h1 :: h2 :: h3 :: v :: rest) →
      exec i s = ends { afterQuery s (queryPacket s op []) with snap := store (v.extractLsb' 0 k) s.snap }
        (.ok (value (v.extractLsb' 0 k))) :=
  ⟨queryFailures hready hq he rfl fun _ => rxBits_short k,
    fun h0 h1 h2 h3 v rest hans => exec_query_answered hready hq he rfl hans (rxBits_result hk h0 h1 h2 h3 v rest)⟩

/-! The tick count at offset 4 (40_framer.md R132). -/

theorem rxTick_short {rx : List Byte} {off : Nat} (h : rx.length < off + 3) : rxTick rx off = none := by
  rw [rxTick, rxTriple_short h, Option.map_none]

theorem rxTick_result (h0 h1 h2 h3 a b c : Byte) (rest : List Byte) :
    rxTick (h0 :: h1 :: h2 :: h3 :: a :: b :: c :: rest) resultOffset = some (le24 a b c) := by
  rw [rxTick, rxTriple_eq]
  rfl

/-! The meanings of the three queries as queries with a storing parser. -/

theorem exec_insrcGet (s : State) :
    exec .insrcGet s = serveConnected (operation none .insrcGet []
      (storing (rxBits · resultOffset 2) (fun v snap => { snap with insrc := some v }) .source)) s := rfl

theorem exec_dispmodeGet (s : State) :
    exec .dispmodeGet s = serveConnected (operation none .dispmodeGet []
      (storing (rxBits · resultOffset 1) (fun v snap => { snap with dispmode := some v }) .bit)) s := rfl

theorem exec_imgtimeGet (start count : Nat) (s : State) :
    exec (.imgtimeGet start count) s = serveConnected (operation none .imgtimeGet [trunc 8 start, trunc 8 count]
      (storing (rxTick · resultOffset) (fun _ snap => snap) fun t => .time (ticksToTime t))) s := rfl

/-! The obligations. -/

/-- Settles O15. -/
theorem sourceAndModeQueriesStoreTheLowBits : Obligations.SourceAndModeQueriesStoreTheLowBits := fun s hready =>
  ⟨queryEffect_bits (by decide) hready rfl (exec_insrcGet s),
    queryEffect_bits (by decide) hready rfl (exec_dispmodeGet s)⟩

/-- Settles O16: the parser that finds the tick count stores nothing. -/
theorem imgtimeGetDividesTheTickCount : Obligations.ImgtimeGetDividesTheTickCount := fun s start count hready =>
  have operands := map_trunc8_trunc [start, count]
  ⟨queryFailures hready rfl (exec_imgtimeGet start count s) operands fun _ => rxTick_short,
    fun h0 h1 h2 h3 a b c rest hans =>
      exec_query_answered hready rfl (exec_imgtimeGet start count s) operands hans (rxTick_result h0 h1 h2 h3 a b c rest)⟩

/-- Settles O23: `trunc 2 v` is `v % 4` by definition; the byte of IMGLOAD narrows `v` as `trunc 8` does. -/
theorem sourceAndImageWritesNarrow : Obligations.SourceAndImageWritesNarrow := fun _ v hready =>
  ⟨fireEffect hready rfl rfl rfl, fireEffect hready rfl rfl (map_trunc8_trunc [v])⟩

end

end Sys2Proof.Machine

/-! PROOFS. O20, O24 and O27 to O35: pattern-sequence configuration, mailbox and validation operations
(43_pattern_config.md). The law of class A is proved here, and the ending of an operation that its local check rejects;
the rest are instances of them and of the laws of classes Q and F. -/

namespace Sys2Proof.Machine

section

open Sys2Proof.Claims

/-! Class A. -/

theorem opPacket_ack {op : Op} (ha : op.cls = .a) (pl : List Nat) (s : State) :
    opPacket s.params s.seq op pl = ackPacket s op (pl.map trunc8) := by
  rw [opPacket, ha, layout_eq_packetOf]
  exact congrArg (packetOf · _ _ _) (BitVec.zero_add _)

/-- A class A packet takes its number from `SEQ`, which then advances (40_framer.md R122). -/
theorem sent_numbered {op : Op} (ha : op.cls = .a) (pl : List Nat) (s : State) :
    sent op pl s = { afterWrite s (opPacket s.params s.seq op pl) with seq := s.seq + 1 } := by
  rw [sent, ha]
  rfl

theorem reply_ack {op : Op} (ha : op.cls = .a) (ack : Bool) : op.cls.reply ack = ack := by
  rw [ha]
  rfl

section

variable {i : Instr} {op : Op} {check : Option ConfigCause} {pl : List Nat} {s : State}

/-- A class A operation that passes its local check writes its numbered packet and discards the response it may ask for. -/
theorem ackEffect {payload : List Byte} (hready : Ready s) (ha : op.cls = .a)
    (he : exec i s = serveConnected (operation check op pl noResult) s) (passes : check = none)
    (hp : pl.map trunc8 = payload) : AckEffect i s (ackPacket s op payload) := by
  obtain ⟨hu, hc⟩ := hready
  subst hp passes
  rw [AckEffect, he, serveConnected_ready _ hu hc, ← opPacket_ack ha, ← sent_numbered ha]
  refine ⟨fun hw => ?_, fun hw hk => ?_, fun hw hk hr => ?_, fun hw hk r hr => ?_⟩
  · rw [operation_write_failed _ hw]
    rfl
  · rw [operation_silent hw ((reply_ack ha _).trans hk)]
    rfl
  · rw [operation_read_failed _ hw ((reply_ack ha _).trans hk) hr]
    rfl
  · rw [operation_acknowledged hw ((reply_ack ha _).trans hk) hr]
    rfl

/-- An operation that its local check rejects ends with that cause and changes nothing else (60_exceptions.md R281). -/
theorem exec_rejected {c : ConfigCause} {parse : State → Res Value} (hready : Ready s)
    (he : exec i s = serveConnected (operation check op pl parse) s) (rejects : check = some c) :
    exec i s = ends s (.error (.configurationError c)) := by
  obtain ⟨hu, hc⟩ := hready
  subst rejects
  rw [he, serveConnected_ready _ hu hc, operation_check]
  rfl

end

/-! The payloads. -/

/-- A flag shifted as a number is the byte 0 or 1 shifted (43_pattern_config.md R191). -/
theorem trunc8_flagNat_shiftLeft (f : Bool) (k : Nat) : trunc8 (flagNat f <<< k) = flag f <<< k := by
  rw [← trunc8_flagNat]
  apply BitVec.eq_of_toNat_eq
  simp only [trunc8, BitVec.toNat_shiftLeft, BitVec.toNat_ofNat, Nat.shiftLeft_eq, Nat.mod_mul_mod]

/-- A count less 1 modulo 256 (43_pattern_config.md R195). -/
theorem trunc8_add_255 (v : Nat) : trunc8 (v + 255) = BitVec.ofNat 8 v - 1 := by
  rw [trunc8, BitVec.ofNat_add, BitVec.sub_eq_add_neg]
  rfl

theorem map_trunc8_trigout1Payload (p : Params) (pol : Bool) (d0 d1 : Nat) :
    (trigout1Payload p pol d0 d1).map trunc8 = [flag pol <<< p.trigout1PolBit.val, trunc8 d0, trunc8 d1] := by
  simp only [trigout1Payload, List.map_cons, List.map_nil, trunc8_trunc, trunc8_flagNat_shiftLeft]

theorem map_trunc8_exposurePayload (exp : Nat) (longer : Bool) :
    (exposurePayload exp longer).map trunc8 = le32Bytes exp ++ le32Bytes (framePeriod exp longer) := by
  rw [exposurePayload, List.map_append, map_trunc8_le32, map_trunc8_le32]
  rfl

theorem map_trunc8_lutctlPayload (entries : Nat) (rep : Bool) (patternCount flashImages : Nat) :
    (lutctlPayload entries rep patternCount flashImages).map trunc8 =
      [BitVec.ofNat 8 entries - 1, flag rep, BitVec.ofNat 8 patternCount - 1, BitVec.ofNat 8 flashImages - 1] := by
  simp only [lutctlPayload, List.map_cons, List.map_nil, trunc8_trunc, trunc8_flagNat, trunc8_add_255]

/-! The meaning of VALID_GET. -/

/-- VALID_GET as a query with a parser that stores nothing. -/
theorem exec_validGet (s : State) :
    exec .validGet s = serveConnected (operation none .validGet []
      (storing (rxByte · resultOffset) (fun _ snap => snap)
        fun v => .validation (validationBusy v) (validationFaults v) v)) s := execValidGet_eq s

/-! The obligations. -/

/-- Settles O20: the five low bits are the byte narrowed to five bits. -/
theorem validGetSplitsTheDataByte : Obligations.ValidGetSplitsTheDataByte := fun s hready => by
  refine ⟨queryFailures hready rfl (exec_validGet s) rfl fun _ => rxByte_short, fun h0 h1 h2 h3 v rest hans => ?_⟩
  have faults : v.extractLsb' 0 5 = validationFaults v := (BitVec.setWidth_eq_extractLsb' (by decide)).symm
  rw [faults]
  exact exec_query_answered hready rfl (exec_validGet s) rfl hans (rxByte_result h0 h1 h2 h3 v rest)

/-- Settles O24: the three actions differ in their code only. -/
theorem patseqCtlSendsTheCode : Obligations.PatseqCtlSendsTheCode := fun s hready =>
  have sends (act : PatSeqAct) : FireEffect (.patseqCtl act) s (firePacket s .patseqCtl [s.params.patseqCode act]) :=
    fireEffect hready rfl rfl (congrArg ([·]) (trunc8_toNat (s.params.patseqCode act)))
  ⟨sends .start, sends .pause, sends .stop⟩

/-- Settles O27. -/
theorem validStartSendsItsPayload : Obligations.ValidStartSendsItsPayload := fun s hready =>
  fireEffect hready rfl rfl (map_trunc8_toNat s.params.validStartPayload)

/-- Settles O28. -/
theorem trigmodeSetChecksAndSends : Obligations.TrigmodeSetChecksAndSends := fun _ mode hready =>
  ⟨fun high => exec_rejected hready rfl ((checkTrigmode_eq mode).trans (if_pos high)),
    fun low => ackEffect hready rfl rfl ((checkTrigmode_eq mode).trans (if_neg (Nat.not_lt.2 low))) rfl⟩

/-- Settles O29. -/
theorem trigout1SetSendsPolarityAndDelays : Obligations.Trigout1SetSendsPolarityAndDelays := fun s pol d0 d1 hready =>
  ackEffect hready rfl rfl rfl (map_trunc8_trigout1Payload s.params pol d0 d1)

/-- Settles O30. -/
theorem patsrcSetChecksAndSends : Obligations.PatsrcSetChecksAndSends := fun _ src hready =>
  ⟨fun h0 h3 => exec_rejected hready rfl ((checkPatsrc_eq src).trans (if_neg (by simp [h0, h3]))),
    fun known => ackEffect hready rfl rfl ((checkPatsrc_eq src).trans (if_pos known)) rfl⟩

/-- Settles O31. -/
theorem exposureSetSendsExposureAndPeriod : Obligations.ExposureSetSendsExposureAndPeriod := fun _ exp longer hready =>
  ackEffect hready rfl rfl rfl (map_trunc8_exposurePayload exp longer)

/-- Settles O32. -/
theorem lutctlSetSendsCountsLessOne : Obligations.LutctlSetSendsCountsLessOne :=
  fun _ entries rep patternCount flashImages hready =>
    ackEffect hready rfl rfl rfl (map_trunc8_lutctlPayload entries rep patternCount flashImages)

/-- Settles O33. -/
theorem offsetAndCloseSendTheirByte : Obligations.OffsetAndCloseSendTheirByte := fun s ofs hready =>
  ⟨ackEffect hready rfl rfl rfl (map_trunc8_trunc [ofs]),
    ackEffect hready rfl rfl rfl (congrArg ([·]) (trunc8_toNat s.params.mboxCloseCode))⟩

/-- Settles O34. -/
theorem mboxOpenChecksAndSends : Obligations.MboxOpenChecksAndSends := fun _ fn hready =>
  ⟨fun h1 h2 h3 => exec_rejected hready rfl ((checkMailbox_eq fn).trans (if_neg (by simp [h1, h2, h3]))),
    fun known => ackEffect hready rfl rfl ((checkMailbox_eq fn).trans (if_pos known)) rfl⟩

/-- Settles O35. -/
theorem mailboxWritesSendAllBytes : Obligations.MailboxWritesSendAllBytes := fun _ bytes hready =>
  ⟨ackEffect hready rfl rfl rfl (map_trunc8_trunc bytes), ackEffect hready rfl rfl rfl (map_trunc8_trunc bytes)⟩

end

end Sys2Proof.Machine

/-! PROOFS. O17 to O19, O25 and O26: the LED and GPIO operations (44_led_gpio.md), as instances of the laws of classes Q
and F. -/

namespace Sys2Proof.Machine

section

open Sys2Proof.Claims

/-! LED currents, which are inverted on the wire (44_led_gpio.md R232, R234). -/

/-- For a current that fits a byte, the subtraction of numbers is the subtraction of bytes. -/
theorem trunc8_inverted {v : Nat} (h : v ≤ 255) : trunc8 (255 - v) = 255 - BitVec.ofNat 8 v :=
  (BitVec.ofNat_sub_ofNat_of_le 255 v (Nat.lt_succ_of_le h) h).symm

theorem ledFromRaw_eq (raw : Byte) : ledFromRaw raw = 255 - raw := by
  rw [ledFromRaw, trunc8_inverted (Nat.le_of_lt_succ raw.isLt), BitVec.ofNat_toNat, BitVec.setWidth_eq]

/-! The results (40_framer.md R132, 20_memory.md R53). -/

theorem rxTriple_result (h0 h1 h2 h3 a b c : Byte) (rest : List Byte) :
    rxTriple (h0 :: h1 :: h2 :: h3 :: a :: b :: c :: rest) resultOffset = some (a, b, c) := rxTriple_eq _ _

theorem rxByte_addressed (h0 h1 h2 h3 x v : Byte) (rest : List Byte) :
    rxByte (h0 :: h1 :: h2 :: h3 :: x :: v :: rest) addressedOffset = some v := rxByte_eq _ _

/-! The meanings of the four queries as queries with a storing parser. -/

theorem exec_ledenGet (s : State) :
    exec .ledenGet s = serveConnected (operation none .ledenGet []
      (storing (rxByte · resultOffset) (fun _ snap => snap) .byte)) s := rfl

theorem exec_ledpolGet (s : State) :
    exec .ledpolGet s = serveConnected (operation none .ledpolGet []
      (storing (rxByte · resultOffset) (fun _ snap => snap) .byte)) s := rfl

theorem exec_ledcurGet (s : State) :
    exec .ledcurGet s = serveConnected (operation none .ledcurGet []
      (storing (rxTriple · resultOffset)
        (fun (r, g, b) snap =>
          { snap with ledR := some (ledFromRaw r), ledG := some (ledFromRaw g), ledB := some (ledFromRaw b) })
        fun (r, g, b) => .currents (ledFromRaw r) (ledFromRaw g) (ledFromRaw b))) s := rfl

theorem exec_gpioGet (pin : Nat) (s : State) :
    exec (.gpioGet pin) s = serveConnected (operation none .gpioGet [trunc 8 pin]
      (storing (rxByte · addressedOffset) (fun _ snap => snap) .byte)) s := rfl

/-! LEDCUR_SET: what its guard admits, and the payload that it then sends (44_led_gpio.md R233, R234). -/

/-- The guard passes currents that fit a byte and, in strict mode, a total of 42000 at most. -/
theorem checkLed_pass {r g b : Nat} {strict : Bool} (hr : r ≤ 255) (hg : g ≤ 255) (hb : b ≤ 255)
    (total : strict = true → 69 * r + 71 * g + 63 * b + 9611 ≤ 42000) : checkLed r g b strict = none := by
  rw [checkLed_eq, if_neg]
  rintro (high | high | high | ⟨hs, high⟩)
  · exact Nat.not_lt.2 hr high
  · exact Nat.not_lt.2 hg high
  · exact Nat.not_lt.2 hb high
  · exact Nat.not_lt.2 (total hs) high

theorem map_trunc8_ledPayload {r g b : Nat} (hr : r ≤ 255) (hg : g ≤ 255) (hb : b ≤ 255) :
    (ledPayload r g b).map trunc8 = [255 - BitVec.ofNat 8 r, 255 - BitVec.ofNat 8 g, 255 - BitVec.ofNat 8 b] := by
  simp only [ledPayload, List.map_cons, List.map_nil, trunc8_inverted hr, trunc8_inverted hg, trunc8_inverted hb]

/-- LEDCUR_SET, once its guard has passed, is an operation without a check. -/
theorem exec_ledcurSet_of_pass {r g b : Nat} {strict : Bool} (pass : checkLed r g b strict = none) (s : State) :
    exec (.ledcurSet r g b strict) s = serveConnected (operation none .ledcurSet (ledPayload r g b) noResult) s :=
  congrArg (fun check => serveConnected (operation check .ledcurSet (ledPayload r g b) noResult) s) pass

/-! GPIO_CFG. -/

/-- The four flags stand in different bits, so that they add up (44_led_gpio.md R235). -/
theorem trunc8_gpioConfig (state buftype dir dis : Bool) :
    trunc8 (gpioConfig state buftype dir dis) =
      (if state then 0x08 else 0) + (if buftype then 0x10 else 0) + (if dir then 0x20 else 0) + (if dis then 0x80 else 0) := by
  revert state buftype dir dis
  decide

theorem map_trunc8_gpioCfgPayload (pin : Nat) (state buftype dir dis : Bool) :
    [trunc 8 pin, gpioConfig state buftype dir dis].map trunc8 =
      [BitVec.ofNat 8 pin,
        (if state then 0x08 else 0) + (if buftype then 0x10 else 0) + (if dir then 0x20 else 0) + (if dis then 0x80 else 0)] := by
  rw [List.map_cons, List.map_cons, List.map_nil, trunc8_trunc, trunc8_gpioConfig]
  rfl

/-! The obligations. -/

/-- Settles O17. -/
theorem ledEnableAndPolarityReturnTheByte : Obligations.LedEnableAndPolarityReturnTheByte := fun s hready =>
  ⟨queryEffect_byte hready rfl (exec_ledenGet s), queryEffect_byte hready rfl (exec_ledpolGet s)⟩

/-- Settles O18: the three bytes are found together, so the three fields are stored together. -/
theorem ledcurGetInvertsTheRawBytes : Obligations.LedcurGetInvertsTheRawBytes := fun s hready => by
  refine ⟨queryFailures hready rfl (exec_ledcurGet s) rfl fun _ => rxTriple_short, fun h0 h1 h2 h3 r g b rest hans => ?_⟩
  rw [← ledFromRaw_eq, ← ledFromRaw_eq, ← ledFromRaw_eq]
  exact exec_query_answered hready rfl (exec_ledcurGet s) rfl hans (rxTriple_result h0 h1 h2 h3 r g b rest)

/-- Settles O19. -/
theorem gpioGetReturnsByteFive : Obligations.GpioGetReturnsByteFive := fun s pin hready =>
  have operand := map_trunc8_trunc [pin]
  ⟨queryFailures hready rfl (exec_gpioGet pin s) operand fun _ => rxByte_short,
    fun h0 h1 h2 h3 x v rest hans =>
      exec_query_answered hready rfl (exec_gpioGet pin s) operand hans (rxByte_addressed h0 h1 h2 h3 x v rest)⟩

/-- Settles O25. -/
theorem ledcurSetIsGuarded : Obligations.LedcurSetIsGuarded := fun s r g b strict hready =>
  ⟨fun high => exec_rejected hready rfl ((checkLed_eq r g b strict).trans (if_pos high)),
    fun hr hg hb total =>
      fireEffect hready rfl (exec_ledcurSet_of_pass (checkLed_pass hr hg hb total) s) (map_trunc8_ledPayload hr hg hb)⟩

/-- Settles O26. -/
theorem gpioCfgPacksItsFlags : Obligations.GpioCfgPacksItsFlags := fun _ pin state buftype dir dis hready =>
  fireEffect hready rfl rfl (map_trunc8_gpioCfgPayload pin state buftype dir dis)

end

end Sys2Proof.Machine

/-! PROOFS. O36 to O38: CONNECT, DISCONNECT, and the pre-flight check of UPLOAD (45_procedures.md R250 to R253). -/

namespace Sys2Proof.Machine

section

open Sys2Proof.Claims

/-! CONNECT and DISCONNECT on an idle block. -/

theorem execConnect_idle {s : State} (hu : s.ustep = none) :
    execConnect s = if s.connected then .refused .alreadyConnected else .next (deliver (connectBody s)) := by
  rw [execConnect, accept_idle _ hu]

theorem connectBody_handle {s : State} (h : openAnswer s = .handle) :
    connectBody s = ({ openTransport s with connected := true }, .ok .none) := by
  rw [connectBody, h]

theorem connectBody_failure {s : State} (h : openAnswer s = .failure) :
    connectBody s = (closeTransport (openTransport s), .error (.transportError .openFailed)) := by
  rw [connectBody, h, raise]

theorem execDisconnect_idle {s : State} (hu : s.ustep = none) :
    execDisconnect s = ends (disconnectBody s) (.ok .none) := by
  rw [execDisconnect, accept_idle _ hu]
  rfl

/-! The pre-flight check of UPLOAD. -/

/-- The pre-flight check has the causes of 60_exceptions.md R281 for UPLOAD. -/
theorem preflight_eq (raw idx : List Nat) (mode : Nat) :
    preflight raw idx mode =
      if raw.length = 0 ∨ raw.length % 3 ≠ 0 then some .sequenceShape
      else if idx.length < 1 ∨ idx.length > raw.length / 3 then some .flashIndexCount
      else if mode > 4 then some .triggerMode else none := rfl

/-- An UPLOAD that its pre-flight check rejects ends with that cause and changes nothing else (R253). -/
theorem execUpload_rejected {raw idx : List Nat} {exp : Nat} {longer : Bool} {mode : Nat} {rep : Bool} {s : State}
    {c : ConfigCause} (hready : Ready s) (hc : preflight raw idx mode = some c) :
    exec (.upload raw idx exp longer mode rep) s = ends s (.error (.configurationError c)) := by
  show serveConnected (uploadBody raw idx exp longer mode rep) s = _
  rw [serveConnected_ready _ hready.1 hready.2, uploadBody, hc]
  rfl

/-! The obligations. -/

/-- Settles O36: one clause for each answer of `open`, and one for a block that is connected already. -/
theorem connectOpensOrReleases : Obligations.ConnectOpensOrReleases := by
  intro s hu opened
  show (_ → execConnect s = _) ∧ (_ → _ → execConnect s = _) ∧ (_ → _ → execConnect s = _)
  rw [execConnect_idle hu]
  refine ⟨fun hc => if_pos hc, fun hc ho => ?_, fun hc ho => ?_⟩
  · rw [if_neg (ne_true_of_eq_false hc), connectBody_handle ho]
    rfl
  · rw [if_neg (ne_true_of_eq_false hc), connectBody_failure ho]
    rfl

/-- Settles O37. -/
theorem disconnectIsAlwaysOk : Obligations.DisconnectIsAlwaysOk := by
  intro s hu
  show (_ → execDisconnect s = _) ∧ (_ → execDisconnect s = _)
  rw [execDisconnect_idle hu, disconnectBody]
  refine ⟨fun hc => ?_, fun hc => ?_⟩
  · rw [if_pos hc]
    rfl
  · rw [if_neg (ne_true_of_eq_false hc)]

/-- Settles O38: each clause fails one check and passes those before it. -/
theorem uploadPreflightRejectsWithoutAccess : Obligations.UploadPreflightRejectsWithoutAccess := by
  intro s raw idx exp longer mode rep hready i
  have shape (h0 : raw.length ≠ 0) (h3 : raw.length % 3 = 0) : ¬ (raw.length = 0 ∨ raw.length % 3 ≠ 0) := by omega
  refine ⟨fun h => execUpload_rejected hready ?_, fun h0 h3 h => execUpload_rejected hready ?_,
    fun h0 h3 h1 hE hmode => execUpload_rejected hready ?_⟩
  · rw [preflight_eq, if_pos h]
  · rw [preflight_eq, if_neg (shape h0 h3), if_pos h]
  · rw [preflight_eq, if_neg (shape h0 h3), if_neg (by omega), if_pos hmode]

end

end Sys2Proof.Machine

/-! PROOFS. What the procedures share (45_procedures.md R264, R265): the request as the ending of a body that `USTEP`
does not influence, the state after accesses that the script answers, and the queries of one byte. -/

namespace Sys2Proof.Machine

section

open Sys2Proof.Claims

/-! `USTEP`, which no operation reads and which is gone when the procedure ends (10_state.md R28). -/

/-- How a request ends when the body of its procedure has ended in this way. -/
def finished (r : Res Value) : Host.Outcome State Fault Refusal := ends { r.1 with ustep := none } r.2

theorem serveConnected_procedure {s : State} (hready : Ready s) (body : State → Res Value) :
    serveConnected (procedure body) s = finished (body (setUstep 0 s)) := by
  rw [serveConnected_ready _ hready.1 hready.2]
  rfl

theorem finished_idle {s : State} (hu : s.ustep = none) (o : Except Ending Value) : finished (s, o) = ends s o := by
  rw [finished, ← hu]

theorem sampleCancel_setUstep (n : Nat) (s : State) : sampleCancel (setUstep n s) = setUstep n (sampleCancel s) := by
  unfold sampleCancel
  cases h : s.params.hasCancel <;> simp only [setUstep, h] <;> rfl

/-! Accesses that the transport answers, as the exchanges that the history gains. -/

@[simp] theorem traced_nil (s : State) : traced s [] = [] := by simp [traced, traceOf]

/-- Nothing added but draws from the cancel input. -/
theorem afterExchanges_nil (s : State) (n : Nat) (cs : List Bool) :
    afterExchanges s [] n s.env.writes s.env.reads cs =
      { s with env := { s.env with cancels := cs }, draws := s.draws + n } := by
  simp [afterExchanges]

/-- After an access the buffers are empty. -/
theorem afterExchanges_cons (s : State) (e : TransportEvent) (new : List TransportEvent) (d : Nat)
    (ws : List WriteAnswer) (rs : List ReadAnswer) (cs : List Bool) :
    afterExchanges s (e :: new) d ws rs cs =
      { s with env := { s.env with writes := ws, reads := rs, cancels := cs }, draws := s.draws + d,
               history := s.history ++ (e :: new), trace := s.trace ++ traced s (e :: new), tx := [], rx := [] } := rfl

/-- A procedure that ends after these accesses. -/
theorem finished_afterExchanges {s : State} (hu : s.ustep = none) (e : TransportEvent) (new : List TransportEvent)
    (d : Nat) (ws : List WriteAnswer) (rs : List ReadAnswer) (cs : List Bool) (o : Except Ending Value) :
    finished (afterExchanges s (e :: new) d ws rs cs, o) =
      ends { s with env := { s.env with writes := ws, reads := rs, cancels := cs }, draws := s.draws + d,
                    history := s.history ++ (e :: new), trace := s.trace ++ traced s (e :: new), tx := [], rx := [] } o :=
  finished_idle (s := afterExchanges s (e :: new) d ws rs cs) hu o

/-- Exchanges after exchanges are exchanges. -/
theorem afterExchanges_append (s : State) (new new' : List TransportEvent) (d d' : Nat) (ws ws' : List WriteAnswer)
    (rs rs' : List ReadAnswer) (cs cs' : List Bool) :
    afterExchanges (afterExchanges s new d ws rs cs) new' d' ws' rs' cs' =
      afterExchanges s (new ++ new') (d + d') ws' rs' cs' := by
  have ht : traced (afterExchanges s new d ws rs cs) new' = traced s new' := rfl
  rw [afterExchanges, ht]
  cases new' <;> simp [afterExchanges, traced_append, Nat.add_assoc]

/-- A write that the transport accepts. -/
theorem afterWrite_accepted {s : State} {p : List Byte} (hw : writeAccepted p s = true) :
    afterWrite s p = afterExchanges s [.wrote p (.count p.length)] 1 s.env.writes.tail s.env.reads s.env.cancels := by
  rw [afterExchanges_cons, afterWrite, (writeAccepted_iff p s).1 hw]
  cases h : s.cfg.debug <;> simp [traced, traceOf, h]

/-- A read, on empty buffers, that the transport answers. -/
theorem afterRead_answered {s : State} {r : List Byte} (hr : readAnswer s = .bytes r) (ht : s.tx = [])
    (hx : s.rx = []) :
    afterRead s = afterExchanges s [.read s.params.rxMaxLen s.params.rxTimeoutMs (.bytes r)] 1 s.env.writes
      s.env.reads.tail s.env.cancels := by
  rw [afterExchanges_cons, afterRead, hr, ht, hx]
  cases h : s.cfg.debug <;> simp [traced, traceOf, h]

/-- A query that the transport answers. -/
theorem afterQuery_answered {s : State} {p r : List Byte} (h : Answers s p r) :
    afterQuery s p =
      afterExchanges s (exchanges s.params [(p, r)]) 2 s.env.writes.tail s.env.reads.tail s.env.cancels := by
  obtain ⟨hw, hr⟩ := h
  rw [afterQuery, afterRead_answered hr rfl rfl, afterWrite_accepted hw, afterExchanges_append]
  rfl

/-- The script answers a query. -/
theorem answers_of_script {s : State} {p r : List Byte} {ws : List WriteAnswer} {rs : List ReadAnswer}
    (hw : s.env.writes = .count p.length :: ws) (hr : s.env.reads = .bytes r :: rs) (hl : r.length ≤ s.params.rxMaxLen) :
    Answers s p r :=
  ⟨(writeAccepted_iff p s).2 (writeAnswer_script hw), readAnswer_script (s := afterWrite s p) hr hl⟩

theorem exchanges_append (p : Params) (a b : List (List Byte × List Byte)) :
    exchanges p (a ++ b) = exchanges p a ++ exchanges p b := by
  simp [exchanges]

/-! The cancel input (60_exceptions.md R297). -/

/-- The samples that are left when the first `j` have been taken. -/
theorem quietCancel_add {s : State} {j k : Nat} {cs : List Bool} (h : QuietCancel s (j + k) cs) :
    QuietCancel s j (if s.params.hasCancel then List.replicate k false ++ cs else cs) := by
  rw [QuietCancel, h]
  split
  · rw [List.replicate_add, List.append_assoc]
  · rfl

/-- When the script holds nothing but what is to be left, no access has been made. -/
theorem afterExchanges_self {s : State} {ws : List WriteAnswer} {rs : List ReadAnswer} {cs : List Bool}
    (hw : s.env.writes = ws) (hr : s.env.reads = rs) (hc : QuietCancel s 0 cs) : afterExchanges s [] 0 ws rs cs = s := by
  have hcs : s.env.cancels = cs := hc.trans (ite_self cs)
  rw [← hw, ← hr, ← hcs, afterExchanges_nil]
  rfl

@[simp] theorem samples_zero (s : State) : samples s 0 = 0 := ite_self 0

/-- At a quiet sample the procedure goes on, having drawn the sample where the input exists. -/
theorem sampleCancel_quiet {s : State} {cs : List Bool} (h : QuietCancel s 1 cs) :
    cancelSample s = false ∧ sampleCancel s = afterExchanges s [] (samples s 1) s.env.writes s.env.reads cs := by
  rw [afterExchanges_nil, cancelSample, sampleCancel, samples]
  cases hc : s.params.hasCancel with
  | true =>
    rw [QuietCancel, hc] at h
    simp [h]
  | false =>
    rw [QuietCancel, hc] at h
    obtain rfl : s.env.cancels = cs := h
    simp

theorem samples_add (s : State) (j k : Nat) : samples s (j + k) = samples s j + samples s k := by
  unfold samples
  split <;> rfl

/-- The answers drawn in one attempt more, of `c` accesses (log 6). -/
theorem attempt_draws (s : State) (c k : Nat) :
    samples s 1 + c + (c * k + samples s k) = c * (k + 1) + samples s (k + 1) := by
  rw [samples_add, Nat.mul_succ]
  omega

/-! The queries of one byte that the procedures run (43_pattern_config.md R203, 41_status_power_buffer.md R150 to
R152). -/

/-- A query without payload whose parser takes the byte at offset 4. -/
def byteQuery {α : Type} (op : Op) (store : Byte → Snapshot → Snapshot) (value : Byte → α) : State → Res α :=
  operation none op [] fun s =>
    parsed (rxByte s.rx resultOffset) (fun v s => ({ s with snap := store v s.snap }, value v)) s

/-- The state with another snapshot, which no access reads. -/
def withSnap (snap : Snapshot) (s : State) : State := { s with snap := snap }

theorem afterQuery_withSnap (snap : Snapshot) (s : State) (p : List Byte) :
    afterQuery (withSnap snap s) p = withSnap snap (afterQuery s p) := rfl

theorem afterExchanges_withSnap (snap : Snapshot) (s : State) (new : List TransportEvent) (d : Nat)
    (ws : List WriteAnswer) (rs : List ReadAnswer) (cs : List Bool) :
    afterExchanges (withSnap snap s) new d ws rs cs = withSnap snap (afterExchanges s new d ws rs cs) := rfl

theorem withSnap_withSnap (snap snap' : Snapshot) (s : State) :
    withSnap snap (withSnap snap' s) = withSnap snap s := rfl

/-- The state after such a query has stored the byte at offset 4 of the response `r`. -/
def stored (p : Params) (op : Op) (store : Byte → Snapshot → Snapshot) (r : List Byte) (s : State) : State :=
  withSnap (store (byteAt r 4) s.snap) (afterQuery s (plainQuery p op))

@[simp] theorem stored_ustep (p : Params) (op : Op) (store : Byte → Snapshot → Snapshot) (r : List Byte) (s : State) :
    (stored p op store r s).ustep = s.ustep := rfl

@[simp] theorem stored_params (p : Params) (op : Op) (store : Byte → Snapshot → Snapshot) (r : List Byte) (s : State) :
    (stored p op store r s).params = s.params := rfl

def storeHw (v : Byte) (snap : Snapshot) : Snapshot := { snap with hw := some v }

def storeSys (v : Byte) (snap : Snapshot) : Snapshot := { snap with sys := some v }

def storeMain (v : Byte) (snap : Snapshot) : Snapshot := { snap with main := some v }

theorem opValidGet_eq :
    opValidGet = byteQuery .validGet (fun _ snap => snap) fun v => (validationBusy v, validationFaults v, v) := rfl

theorem opPacket_plainQuery {op : Op} (hq : op.cls = .q) (s : State) :
    opPacket s.params s.seq op [] = plainQuery s.params op := opPacket_query hq [] s

theorem rxByte_whole {r : List Byte} (h : 5 ≤ r.length) : rxByte r resultOffset = some (byteAt r 4) := by
  rw [rxByte_eq, byteAt, List.getD_eq_getElem r 0 h]
  exact List.getElem?_eq_getElem h

/-- The ways a query with the packet `p` and a parser that needs five bytes ends otherwise than Ok, each with the state
it leaves (60_exceptions.md R282, R287). -/
inductive QueryFails (s : State) (p : List Byte) : State → Ending → Prop
  | write (hw : writeAccepted p s = false) : QueryFails s p (afterWrite s p) (.transportError .write)
  | read (hw : writeAccepted p s = true) (hr : readAnswer (afterWrite s p) = .failure) :
      QueryFails s p (afterQuery s p) (.transportError .read)
  | underrun (r : List Byte) (h : Answers s p r) (hlen : r.length < 5) :
      QueryFails s p (afterQuery s p) .responseUnderrun

/-- An outcome that is that of every failure of a query is the outcome where the query stops. -/
theorem queryStops_of_fails {o : Host.Outcome State Fault Refusal} {s : State} {p : List Byte}
    (h : ∀ w e, QueryFails s p w e → o = ends w (.error e)) : QueryStops o s p 5 :=
  ⟨fun hw => h _ _ (.write hw), fun hw hr => h _ _ (.read hw hr), fun r ha hl => h _ _ (.underrun r ha hl)⟩

section

variable {α : Type} {op : Op} {store : Byte → Snapshot → Snapshot} {value : Byte → α} {s : State} {p : Params}

/-- A whole response: its byte at offset 4 is stored and answered. -/
theorem byteQuery_answered {r : List Byte} (hq : op.cls = .q) (hp : s.params = p) (h : Answers s (plainQuery p op) r)
    (hlen : 5 ≤ r.length) :
    byteQuery op store value s =
      (stored p op store r s, .ok (value (byteAt r 4))) := by
  subst hp
  obtain ⟨hw, hr⟩ := h
  rw [stored, afterQuery]
  rw [← opPacket_plainQuery hq] at hw hr ⊢
  rw [← sent_unnumbered (useSequence_query hq)] at hr ⊢
  rw [byteQuery, operation_answered _ hw (reply_query hq _) hr]
  simp only [answered, rxByte_whole hlen, parsed_some]
  rfl

/-- A query that fails ends with its failure and stores nothing. -/
theorem byteQuery_fails {w : State} {e : Ending} (hq : op.cls = .q) (hp : s.params = p)
    (h : QueryFails s (plainQuery p op) w e) : byteQuery op store value s = (w, .error e) := by
  subst hp
  rw [← opPacket_plainQuery hq] at h
  cases h with
  | write hw => rw [byteQuery, operation_write_failed _ hw, sent_unnumbered (useSequence_query hq)]
  | read hw hr =>
    rw [afterQuery]
    rw [← sent_unnumbered (useSequence_query hq)] at hr ⊢
    rw [byteQuery, operation_read_failed _ hw (reply_query hq _) hr]
  | underrun r h hlen =>
    obtain ⟨hw, hr⟩ := h
    rw [afterQuery]
    rw [← sent_unnumbered (useSequence_query hq)] at hr ⊢
    rw [byteQuery, operation_answered _ hw (reply_query hq _) hr]
    simp only [answered, rxByte_short (off := resultOffset) hlen, parsed_none]
    rfl

end

theorem QueryFails.ustep {s w : State} {p : List Byte} {e : Ending} (h : QueryFails s p w e) : w.ustep = s.ustep := by
  cases h <;> rfl

/-- A failure does not depend on `USTEP`. -/
theorem QueryFails.setUstep {s w : State} {p : List Byte} {e : Ending} (h : QueryFails s p w e) (n : Nat) :
    QueryFails (setUstep n s) p (setUstep n w) e := by
  cases h with
  | write hw => exact .write hw
  | read hw hr => exact .read hw hr
  | underrun r h hlen => exact .underrun r h hlen

end

end Sys2Proof.Machine

/-! PROOFS. O41 and O42, and VALIDATE's part of O45 (45_procedures.md R257, R258). -/

namespace Sys2Proof.Machine

section

open Sys2Proof.Claims

/-! The start. -/

theorem opPacket_validStart (s : State) :
    opPacket s.params s.seq .validStart (s.params.validStartPayload.map BitVec.toNat) =
      firePacket s .validStart s.params.validStartPayload := by
  rw [opPacket_fire rfl, map_trunc8_toNat]

theorem opValidStart_accepted {s : State}
    (hw : writeAccepted (firePacket s .validStart s.params.validStartPayload) s = true) :
    opValidStart s = (afterWrite s (firePacket s .validStart s.params.validStartPayload), .ok .none) := by
  rw [← opPacket_validStart] at hw ⊢
  exact operation_silent hw rfl

theorem opValidStart_refused {s : State}
    (hw : writeAccepted (firePacket s .validStart s.params.validStartPayload) s = false) :
    opValidStart s =
      (afterWrite s (firePacket s .validStart s.params.validStartPayload), .error (.transportError .write)) := by
  rw [← opPacket_validStart] at hw ⊢
  exact operation_write_failed _ hw

/-- The attempts set `USTEP` themselves. -/
theorem validateAttempts_setUstep (k left n : Nat) (s : State) :
    finished (validateAttempts k left (setUstep n s)) = finished (validateAttempts k left s) := by
  cases left <;> rfl

section

variable {s : State} (hready : Ready s) (maxAttempts : Nat)

include hready

theorem exec_validate :
    exec (.validate maxAttempts) s =
      finished ((opValidStart (setUstep 0 s)).andThen fun t _ => validateAttempts 1 maxAttempts t) :=
  serveConnected_procedure hready _

/-- A refused start ends VALIDATE. -/
theorem exec_validate_refused
    (hw : writeAccepted (firePacket s .validStart s.params.validStartPayload) s = false) :
    exec (.validate maxAttempts) s =
      ends (afterWrite s (firePacket s .validStart s.params.validStartPayload)) (.error (.transportError .write)) := by
  rw [exec_validate hready, opValidStart_refused (s := setUstep 0 s) hw]
  exact finished_idle (s := afterWrite s _) hready.1 _

/-- After an accepted start VALIDATE is its attempts. -/
theorem exec_validate_started
    (hw : writeAccepted (firePacket s .validStart s.params.validStartPayload) s = true) :
    exec (.validate maxAttempts) s = finished (validateAttempts 1 maxAttempts
      (afterExchanges s [.wrote (firePacket s .validStart s.params.validStartPayload)
        (.count (firePacket s .validStart s.params.validStartPayload).length)] 1
        s.env.writes.tail s.env.reads s.env.cancels)) := by
  rw [exec_validate hready, opValidStart_accepted (s := setUstep 0 s) hw, ← afterWrite_accepted hw]
  exact validateAttempts_setUstep 1 maxAttempts 0 (afterWrite s _)

end

/-! One attempt. -/

theorem validateAttempts_exhausted (k : Nat) (s : State) :
    validateAttempts k 0 s = (s, .error (.exhaustedRetry .validation)) := rfl

section

variable {s : State} (k left : Nat)

theorem validateAttempts_cancelled (hc : cancelSample s = true) :
    finished (validateAttempts k (left + 1) s) = finished (sampleCancel s, .error (.cancelled .validation k)) := by
  simp only [validateAttempts, hc, if_true, sampleCancel_setUstep]
  rfl

/-- Where the cancel input is 0 the attempt makes its query. -/
theorem validateAttempts_query (hc : cancelSample s = false) :
    validateAttempts k (left + 1) s =
      (opValidGet (setUstep 1 (sampleCancel s))).andThen fun t (busy, faults, _) =>
        if busy then validateAttempts (k + 1) left (setUstep 2 t) else (setUstep 2 t, .ok (.faults faults)) := by
  simp only [validateAttempts, hc, sampleCancel_setUstep]
  rfl

theorem validateAttempts_fails {w : State} {e : Ending} (hc : cancelSample s = false)
    (h : QueryFails (sampleCancel s) (plainQuery s.params .validGet) w e) :
    finished (validateAttempts k (left + 1) s) = finished (w, .error e) := by
  rw [validateAttempts_query k left hc, opValidGet_eq,
    byteQuery_fails (s := setUstep 1 (sampleCancel s)) rfl (sampleCancel_params s) (h.setUstep 1)]
  rfl

section

variable {r : List Byte} (hc : cancelSample s = false)
  (h : Answers (sampleCancel s) (plainQuery s.params .validGet) r) (hlen : 5 ≤ r.length)

include hc h hlen

/-- A whole response: the attempt ends Ok or leads to the next, as its data byte says. -/
theorem validateAttempts_answered :
    finished (validateAttempts k (left + 1) s) =
      finished (if validationBusy (byteAt r 4) then
        validateAttempts (k + 1) left (setUstep 2 (afterQuery (sampleCancel s) (plainQuery s.params .validGet)))
      else (setUstep 2 (afterQuery (sampleCancel s) (plainQuery s.params .validGet)),
        .ok (.faults (validationFaults (byteAt r 4))))) := by
  rw [validateAttempts_query k left hc, opValidGet_eq,
    byteQuery_answered (s := setUstep 1 (sampleCancel s)) rfl (sampleCancel_params s) h hlen]
  rfl

theorem validateAttempts_again (busy : validationBusy (byteAt r 4) = true) :
    finished (validateAttempts k (left + 1) s) =
      finished (validateAttempts (k + 1) left (afterQuery (sampleCancel s) (plainQuery s.params .validGet))) := by
  rw [validateAttempts_answered k left hc h hlen, if_pos busy]
  exact validateAttempts_setUstep _ _ 2 _

theorem validateAttempts_idle (idle : validationBusy (byteAt r 4) = false) :
    finished (validateAttempts k (left + 1) s) =
      finished (afterQuery (sampleCancel s) (plainQuery s.params .validGet),
        .ok (.faults (validationFaults (byteAt r 4)))) := by
  rw [validateAttempts_answered k left hc h hlen, if_neg (ne_true_of_eq_false idle)]
  rfl

end

end

/-! The attempts that the script answers. -/

/-- The script answers one exchange after a quiet sample. -/
theorem sampled_exchange {s : State} {p r : List Byte} {ws : List WriteAnswer} {rs : List ReadAnswer} {cs : List Bool}
    (hw : s.env.writes = .count p.length :: ws) (hr : s.env.reads = .bytes r :: rs) (hl : r.length ≤ s.params.rxMaxLen)
    (hc : QuietCancel s 1 cs) :
    Answers (sampleCancel s) p r ∧
      afterQuery (sampleCancel s) p = afterExchanges s (exchanges s.params [(p, r)]) (samples s 1 + 2) ws rs cs := by
  rw [(sampleCancel_quiet hc).2]
  have h : Answers (afterExchanges s [] (samples s 1) s.env.writes s.env.reads cs) p r := answers_of_script hw hr hl
  refine ⟨h, ?_⟩
  rw [afterQuery_answered h, afterExchanges_append]
  simp only [afterExchanges, hw, hr]
  rfl

/-- What VALIDATE exchanges in attempts with these responses. -/
def validations (p : Params) (rs : List (List Byte)) : List TransportEvent :=
  exchanges p (rs.map fun r => (plainQuery p .validGet, r))

theorem validations_append (p : Params) (a b : List (List Byte)) :
    validations p (a ++ b) = validations p a ++ validations p b := by
  rw [validations, List.map_append, exchanges_append]
  rfl

/-- An idle attempt ends VALIDATE. -/
theorem validateAttempts_idle_script (k left : Nat) {s : State} {r : List Byte} {ws : List WriteAnswer}
    {rs : List ReadAnswer} {cs : List Bool} (hw : s.env.writes = .count 7 :: ws) (hr : s.env.reads = .bytes r :: rs)
    (hlen : 5 ≤ r.length ∧ r.length ≤ s.params.rxMaxLen) (hc : QuietCancel s 1 cs)
    (idle : (byteAt r 4).getLsbD 7 = false) :
    finished (validateAttempts k (left + 1) s) =
      finished (afterExchanges s (validations s.params [r]) (samples s 1 + 2) ws rs cs,
        .ok (.faults ((byteAt r 4).extractLsb' 0 5))) := by
  obtain ⟨ha, he⟩ := sampled_exchange (p := plainQuery s.params .validGet) hw hr hlen.2 hc
  have faults : validationFaults (byteAt r 4) = (byteAt r 4).extractLsb' 0 5 :=
    BitVec.setWidth_eq_extractLsb' (by decide)
  rw [validateAttempts_idle k left (sampleCancel_quiet hc).1 ha hlen.1 idle, he, faults]
  rfl

/-- Busy attempts are used up one by one. -/
theorem validateAttempts_busy (left : Nat) {ws : List WriteAnswer} {rs : List ReadAnswer} {cs : List Bool}
    {busy : List (List Byte)} : ∀ (k : Nat) (s : State),
    (∀ r ∈ busy, 5 ≤ r.length ∧ r.length ≤ s.params.rxMaxLen) → (∀ r ∈ busy, (byteAt r 4).getLsbD 7 = true) →
    s.env.writes = List.replicate busy.length (.count 7) ++ ws → s.env.reads = busy.map .bytes ++ rs →
    QuietCancel s busy.length cs →
    finished (validateAttempts k (busy.length + left) s) =
      finished (validateAttempts (k + busy.length) left
        (afterExchanges s (validations s.params busy) (2 * busy.length + samples s busy.length) ws rs cs)) := by
  induction busy with
  | nil =>
    intro k s _ _ hw hr hc
    have same : afterExchanges s (validations s.params []) (2 * 0 + samples s 0) ws rs cs = s :=
      (congrArg (afterExchanges s [] · ws rs cs) (by simp)).trans (afterExchanges_self hw hr hc)
    simp only [List.length_nil, same, Nat.zero_add, Nat.add_zero]
  | cons r busy ih =>
    intro k s hlen hbusy hw hr hc
    obtain ⟨⟨h5, hmax⟩, hlen⟩ := List.forall_mem_cons.1 hlen
    obtain ⟨hb, hbusy⟩ := List.forall_mem_cons.1 hbusy
    rw [List.length_cons, Nat.add_comm busy.length 1] at hc
    have hc1 := quietCancel_add hc
    obtain ⟨ha, he⟩ := sampled_exchange (p := plainQuery s.params .validGet) hw hr hmax hc1
    rw [List.length_cons, Nat.add_right_comm _ 1, validateAttempts_again _ _ (sampleCancel_quiet hc1).1 ha h5 hb, he]
    refine (ih (k + 1) (afterExchanges s _ _ _ _ _) hlen hbusy rfl rfl rfl).trans ?_
    rw [afterExchanges_append, ← attempt_draws, Nat.add_assoc k, Nat.add_comm 1]
    rfl

/-- VALIDATE after an accepted start and busy attempts, with the attempts that are left. -/
theorem exec_validate_busy {s : State} (hready : Ready s) (left : Nat) {ws : List WriteAnswer} {rs : List ReadAnswer}
    {cs : List Bool} {busy : List (List Byte)} {start : List Byte}
    (hstart : start = firePacket s .validStart s.params.validStartPayload) (hw : writeAccepted start s = true)
    (hlen : ∀ r ∈ busy, 5 ≤ r.length ∧ r.length ≤ s.params.rxMaxLen) (hbusy : ∀ r ∈ busy, (byteAt r 4).getLsbD 7 = true)
    (hws : s.env.writes.tail = List.replicate busy.length (.count 7) ++ ws) (hrs : s.env.reads = busy.map .bytes ++ rs)
    (hcs : QuietCancel s busy.length cs) :
    exec (.validate (busy.length + left)) s =
      finished (validateAttempts (busy.length + 1) left
        (afterExchanges s (.wrote start (.count start.length) :: validations s.params busy)
          (1 + 2 * busy.length + samples s busy.length) ws rs cs)) := by
  subst hstart
  rw [exec_validate_started hready _ hw]
  refine (validateAttempts_busy left 1 (afterExchanges s _ _ _ _ _) hlen hbusy hws hrs hcs).trans ?_
  rw [afterExchanges_append, Nat.add_assoc, Nat.add_comm 1]
  rfl

/-- After busy attempts VALIDATE ends at once where the cancel input is 1 or the query fails (45_procedures.md R264,
60_exceptions.md R297). -/
theorem exec_validate_stops {s u : State} (hready : Ready s) {maxAttempts : Nat} {ws : List WriteAnswer}
    {rs : List ReadAnswer} {cs : List Bool} {busy : List (List Byte)} {start : List Byte}
    (hstart : start = firePacket s .validStart s.params.validStartPayload) (hw : writeAccepted start s = true)
    (hlen : ∀ r ∈ busy, 5 ≤ r.length ∧ r.length ≤ s.params.rxMaxLen) (hbusy : ∀ r ∈ busy, (byteAt r 4).getLsbD 7 = true)
    (hmax : busy.length < maxAttempts) (hws : s.env.writes.tail = List.replicate busy.length (.count 7) ++ ws)
    (hrs : s.env.reads = busy.map .bytes ++ rs) (hcs : QuietCancel s busy.length cs)
    (hu : u = afterExchanges s (.wrote start (.count start.length) :: validations s.params busy)
      (1 + 2 * busy.length + samples s busy.length) ws rs cs) :
    (cancelSample u = true →
      exec (.validate maxAttempts) s = ends (sampleCancel u) (.error (.cancelled .validation (busy.length + 1)))) ∧
    (cancelSample u = false →
      QueryStops (exec (.validate maxAttempts) s) (sampleCancel u) (plainQuery s.params .validGet) 5) := by
  obtain ⟨left, rfl⟩ := Nat.exists_eq_add_of_lt hmax
  have idle : (sampleCancel u).ustep = none := by
    rw [sampleCancel_ustep, hu]
    exact hready.1
  have params : u.params = s.params := by
    rw [hu]
    rfl
  have run : exec (.validate (busy.length + left + 1)) s =
      finished (validateAttempts (busy.length + 1) (left + 1) u) := by
    rw [hu]
    exact exec_validate_busy hready (left + 1) hstart hw hlen hbusy hws hrs hcs
  refine ⟨fun cancel => ?_, fun quiet => queryStops_of_fails fun w e fails => ?_⟩
  · rw [run, validateAttempts_cancelled _ left cancel, finished_idle idle]
  · rw [← params] at fails
    rw [run, validateAttempts_fails _ left quiet fails, finished_idle (fails.ustep.trans idle)]

/-! The obligations. -/

/-- Settles O42: the attempts are used up. -/
theorem validateIsBounded : Obligations.ValidateIsBounded := by
  intro s busy ws rs cs hready hlen hbusy start k hw hr hc new
  have accepted : writeAccepted start s = true := (writeAccepted_iff start s).2 (writeAnswer_script hw)
  have run := exec_validate_busy hready 0 rfl accepted hlen hbusy (congrArg List.tail hw) hr hc
  rw [validateAttempts_exhausted, finished_afterExchanges hready.1, ← Nat.add_assoc, ← Nat.add_assoc] at run
  exact run

/-- Settles O41: after the busy attempts the idle one is answered. -/
theorem validateReturnsTheFirstIdleFaults : Obligations.ValidateReturnsTheFirstIdleFaults := by
  intro s maxAttempts busy last ws rs cs hready hlen hbusy hidle hmax start k hw hr hc new
  obtain ⟨left, rfl⟩ := Nat.exists_eq_add_of_lt hmax
  have accepted : writeAccepted start s = true := (writeAccepted_iff start s).2 (writeAnswer_script hw)
  obtain ⟨hlenBusy, hlenLast⟩ := List.forall_mem_append.1 hlen
  have writes : s.env.writes.tail = List.replicate busy.length (.count 7) ++ (.count 7 :: ws) := by
    rw [hw, List.replicate_succ']
    exact List.append_assoc _ _ _
  have reads : s.env.reads = busy.map .bytes ++ (.bytes last :: rs) := by
    rw [hr, List.map_append]
    exact List.append_assoc _ _ _
  have run := (exec_validate_busy hready (left + 1) rfl accepted hlenBusy hbusy writes reads (quietCancel_add hc)).trans
    (validateAttempts_idle_script _ left rfl rfl (hlenLast last (List.mem_singleton_self last)) rfl hidle)
  have events : new = .wrote start (.count start.length) :: (validations s.params busy ++ validations s.params [last]) :=
    congrArg _ (validations_append s.params busy [last])
  have draws : 1 + 2 * k + samples s k = 1 + 2 * busy.length + samples s busy.length + (samples s 1 + 2) := by
    show 1 + 2 * (busy.length + 1) + samples s (busy.length + 1) = _
    have := attempt_draws s 2 busy.length
    omega
  rw [afterExchanges_append] at run
  rw [events, Nat.add_assoc s.draws, Nat.add_assoc s.draws, draws]
  exact run.trans (finished_afterExchanges hready.1 _ _ _ _ _ _ _)

end

end Sys2Proof.Machine

/-! PROOFS. O43 to O45: POLLSTAT, and where a polling procedure stops early (45_procedures.md R261 to R264). -/

namespace Sys2Proof.Machine

section

open Sys2Proof.Claims

/-! The three queries of an attempt. -/

/-- The attempts set `USTEP` themselves. -/
theorem pollAttempts_setUstep (k left n : Nat) (s : State) :
    finished (pollAttempts k left (setUstep n s)) = finished (pollAttempts k left s) := by
  cases left <;> rfl

theorem exec_pollstat {s : State} (hready : Ready s) (retries : Option Nat) :
    exec (.pollstat retries) s = finished (pollAttempts 1 (retries.getD 10) s) :=
  (serveConnected_procedure hready _).trans (pollAttempts_setUstep _ _ 0 s)

theorem statusQueries_eq :
    statusQueries = [byteQuery .hwstatGet storeHw .byte, byteQuery .sysstatGet storeSys .byte,
      byteQuery .mainstatGet storeMain .byte] := rfl

section

variable {op : Op} {store : Byte → Snapshot → Snapshot} {value : Byte → Value} {s : State} {p : Params}
  (k n : Nat) (rest : List (State → Res Value))

/-- A line of steps goes on after a query that is answered. -/
theorem runSteps_byteQuery_answered {r : List Byte} (hq : op.cls = .q) (hp : s.params = p)
    (h : Answers s (plainQuery p op) r) (hlen : 5 ≤ r.length) :
    runSteps k (byteQuery op store value :: rest) (setUstep n s) =
      runSteps (k + 1) rest (setUstep (k + 1) (stored p op store r s)) := by
  rw [runSteps_cons, byteQuery_answered (s := setUstep n s) hq hp h hlen]
  rfl

/-- It ends with a query that fails. -/
theorem runSteps_byteQuery_fails {w : State} {e : Ending} (hq : op.cls = .q) (hp : s.params = p)
    (h : QueryFails s (plainQuery p op) w e) :
    runSteps k (byteQuery op store value :: rest) (setUstep n s) = (setUstep n w, .error e) := by
  rw [runSteps_cons, byteQuery_fails (s := setUstep n s) hq hp (h.setUstep n), andThen_error]

end

/-! One attempt. -/

theorem pollAttempts_exhausted (k : Nat) (s : State) : pollAttempts k 0 s = (s, .error (.exhaustedRetry .status)) := rfl

section

variable {s : State} (k left : Nat)

theorem pollAttempts_cancelled (hc : cancelSample s = true) :
    finished (pollAttempts k (left + 1) s) = finished (sampleCancel s, .error (.cancelled .status k)) := by
  simp only [pollAttempts, hc, if_true, sampleCancel_setUstep]
  rfl

variable (hc : cancelSample s = false)

include hc

/-- A query that fails ends the attempt and POLLSTAT. -/
theorem pollAttempts_fails {n : Nat} {w : State} {e : Ending}
    (run : runSteps 0 statusQueries (setUstep 0 (sampleCancel s)) = (setUstep n w, .error e)) :
    finished (pollAttempts k (left + 1) s) = finished (w, .error e) := by
  simp only [pollAttempts, hc, sampleCancel_setUstep, run, andThen_error, Bool.false_eq_true, if_false]
  rfl

/-- An attempt with nominal bytes ends POLLSTAT. -/
theorem pollAttempts_nominal {n : Nat} {t : State} {v w : Value}
    (run : runSteps 0 statusQueries (setUstep 0 (sampleCancel s)) = (setUstep n t, .ok w))
    (nominal : nominalStatus k t = some v) : finished (pollAttempts k (left + 1) s) = finished (t, .ok v) := by
  have h : nominalStatus k (setUstep n t) = some v := nominal
  simp only [pollAttempts, hc, sampleCancel_setUstep, run, andThen_ok, h, Bool.false_eq_true, if_false]
  rfl

/-- An attempt without is followed by the next. -/
theorem pollAttempts_again {n : Nat} {t : State} {w : Value}
    (run : runSteps 0 statusQueries (setUstep 0 (sampleCancel s)) = (setUstep n t, .ok w))
    (bad : nominalStatus k t = none) :
    finished (pollAttempts k (left + 1) s) = finished (pollAttempts (k + 1) left t) := by
  have h : nominalStatus k (setUstep n t) = none := bad
  simp only [pollAttempts, hc, sampleCancel_setUstep, run, andThen_ok, h, Bool.false_eq_true, if_false]
  exact pollAttempts_setUstep _ _ n t

end

/-! The attempts that the script answers. -/

/-- What POLLSTAT exchanges in attempts with these responses. -/
def polls (p : Params) (as : List (List Byte × List Byte × List Byte)) : List TransportEvent :=
  exchanges p (as.flatMap (statusExchanges p))

theorem polls_append (p : Params) (a b : List (List Byte × List Byte × List Byte)) :
    polls p (a ++ b) = polls p a ++ polls p b := by
  rw [polls, List.flatMap_append, exchanges_append]
  rfl

/-- The state after exchanges that have left this snapshot. -/
def afterStatuses (s : State) (new : List TransportEvent) (d : Nat) (ws : List WriteAnswer) (rs : List ReadAnswer)
    (cs : List Bool) (snap : Snapshot) : State :=
  withSnap snap (afterExchanges s new d ws rs cs)

theorem afterStatuses_append (s : State) (new new' : List TransportEvent) (d d' : Nat) (ws ws' : List WriteAnswer)
    (rs rs' : List ReadAnswer) (cs cs' : List Bool) (snap snap' : Snapshot) :
    afterStatuses (afterStatuses s new d ws rs cs snap) new' d' ws' rs' cs' snap' =
      afterStatuses s (new ++ new') (d + d') ws' rs' cs' snap' := by
  simp only [afterStatuses, afterExchanges_withSnap, withSnap_withSnap, afterExchanges_append]

/-- A procedure that ends after exchanges, of which there is one at least. -/
theorem finished_afterStatuses {s : State} (hu : s.ustep = none) {new : List TransportEvent} (hn : new ≠ []) (d : Nat)
    (ws : List WriteAnswer) (rs : List ReadAnswer) (cs : List Bool) (snap : Snapshot) (o : Except Ending Value) :
    finished (afterStatuses s new d ws rs cs snap, o) =
      ends { s with snap := snap, env := { s.env with writes := ws, reads := rs, cancels := cs }, draws := s.draws + d,
                    history := s.history ++ new, trace := s.trace ++ traced s new, tx := [], rx := [] } o := by
  obtain ⟨e, rest, rfl⟩ := List.exists_cons_of_ne_nil hn
  exact finished_idle (s := afterStatuses s (e :: rest) d ws rs cs snap) hu o

/-- The script answers the three queries. -/
theorem statusQueries_script {s : State} {p : Params} {a : List Byte × List Byte × List Byte} {ws : List WriteAnswer}
    {rs : List ReadAnswer} (hp : s.params = p) (hw : s.env.writes = .count 7 :: .count 7 :: .count 7 :: ws)
    (hr : s.env.reads = .bytes a.1 :: .bytes a.2.1 :: .bytes a.2.2 :: rs) (whole : WholeAttempt p a) :
    runSteps 0 statusQueries (setUstep 0 s) =
      (setUstep 3 (afterStatuses s (polls p [a]) 6 ws rs s.env.cancels (snapAfter s.snap a)), .ok .none) := by
  obtain ⟨⟨h5, hl⟩, ⟨h5', hl'⟩, ⟨h5'', hl''⟩⟩ := hp ▸ whole
  let u1 := stored p .hwstatGet storeHw a.1 s
  let u2 := stored p .sysstatGet storeSys a.2.1 u1
  have a1 : Answers s (plainQuery p .hwstatGet) a.1 := answers_of_script hw hr hl
  have a2 : Answers u1 (plainQuery p .sysstatGet) a.2.1 :=
    answers_of_script (congrArg List.tail hw) (congrArg List.tail hr) hl'
  have a3 : Answers u2 (plainQuery p .mainstatGet) a.2.2 :=
    answers_of_script (congrArg (·.tail.tail) hw) (congrArg (·.tail.tail) hr) hl''
  have he : stored p .mainstatGet storeMain a.2.2 u2 =
      afterStatuses s (polls p [a]) 6 ws rs s.env.cancels (snapAfter s.snap a) := by
    have hws : s.env.writes.tail.tail.tail = ws := by rw [hw]; rfl
    have hrs : s.env.reads.tail.tail.tail = rs := by rw [hr]; rfl
    simp only [u2, u1, stored, afterQuery_withSnap, withSnap_withSnap]
    rw [afterQuery_answered (s := afterQuery (afterQuery s _) _) a3, afterQuery_answered (s := afterQuery s _) a2,
      afterQuery_answered a1, afterExchanges_append, afterExchanges_append, ← hws, ← hrs, ← hp]
    rfl
  rw [statusQueries_eq, runSteps_byteQuery_answered 0 0 _ rfl hp a1 h5,
    runSteps_byteQuery_answered (s := u1) 1 1 _ rfl hp a2 h5',
    runSteps_byteQuery_answered (s := u2) 2 2 _ rfl hp a3 h5'', runSteps_nil, he]

/-- What an attempt with whole responses leaves to the stop condition (45_procedures.md R262). -/
theorem nominalStatus_snapAfter {t : State} {snap : Snapshot} {a : List Byte × List Byte × List Byte} (k : Nat)
    (h : t.snap = snapAfter snap a) :
    nominalStatus k t =
      if Nominal t.params a then some (.status k (byteAt a.1 4) (byteAt a.2.1 4) (byteAt a.2.2 4)) else none := by
  rw [nominalStatus, h]
  rfl

section

variable (k left : Nat) {s : State} {a : List Byte × List Byte × List Byte} {ws : List WriteAnswer}
  {rs : List ReadAnswer} {cs : List Bool}
  (hw : s.env.writes = .count 7 :: .count 7 :: .count 7 :: ws)
  (hr : s.env.reads = .bytes a.1 :: .bytes a.2.1 :: .bytes a.2.2 :: rs) (whole : WholeAttempt s.params a)
  (hc : QuietCancel s 1 cs)

include hw hr whole hc

/-- The script answers the three queries after a quiet sample. -/
theorem sampled_statusQueries :
    runSteps 0 statusQueries (setUstep 0 (sampleCancel s)) =
      (setUstep 3 (afterStatuses s (polls s.params [a]) (samples s 1 + 6) ws rs cs (snapAfter s.snap a)), .ok .none) := by
  rw [(sampleCancel_quiet hc).2]
  refine (statusQueries_script (s := afterExchanges s [] _ _ _ cs) rfl hw hr whole).trans ?_
  exact congrArg (fun t => (setUstep 3 t, Except.ok Value.none)) (afterStatuses_append s [] _ _ 6 _ ws _ rs cs cs _ _)

theorem pollAttempts_nominal_script (nominal : Nominal s.params a) :
    finished (pollAttempts k (left + 1) s) =
      finished (afterStatuses s (polls s.params [a]) (samples s 1 + 6) ws rs cs (snapAfter s.snap a),
        .ok (.status k (byteAt a.1 4) (byteAt a.2.1 4) (byteAt a.2.2 4))) :=
  pollAttempts_nominal k left (sampleCancel_quiet hc).1 (sampled_statusQueries hw hr whole hc)
    ((nominalStatus_snapAfter k rfl).trans (if_pos nominal))

theorem pollAttempts_again_script (bad : ¬ Nominal s.params a) :
    finished (pollAttempts k (left + 1) s) =
      finished (pollAttempts (k + 1) left
        (afterStatuses s (polls s.params [a]) (samples s 1 + 6) ws rs cs (snapAfter s.snap a))) :=
  pollAttempts_again k left (sampleCancel_quiet hc).1 (sampled_statusQueries hw hr whole hc)
    ((nominalStatus_snapAfter k rfl).trans (if_neg bad))

end

/-- Attempts that are not nominal are used up one by one. -/
theorem pollAttempts_bad (left : Nat) {ws : List WriteAnswer} {rs : List ReadAnswer} {cs : List Bool}
    {bad : List (List Byte × List Byte × List Byte)} : ∀ (k : Nat) (s : State),
    (∀ a ∈ bad, WholeAttempt s.params a) → (∀ a ∈ bad, ¬ Nominal s.params a) →
    s.env.writes = List.replicate (3 * bad.length) (.count 7) ++ ws → s.env.reads = responsesOf bad ++ rs →
    QuietCancel s bad.length cs →
    finished (pollAttempts k (bad.length + left) s) =
      finished (pollAttempts (k + bad.length) left
        (afterStatuses s (polls s.params bad) (6 * bad.length + samples s bad.length) ws rs cs
          (bad.foldl snapAfter s.snap))) := by
  induction bad with
  | nil =>
    intro k s _ _ hw hr hc
    have same : afterStatuses s (polls s.params []) (6 * 0 + samples s 0) ws rs cs s.snap = s := by
      rw [samples_zero]
      exact congrArg (withSnap s.snap) (afterExchanges_self hw hr hc)
    simp only [List.length_nil, List.foldl_nil, same, Nat.zero_add, Nat.add_zero]
  | cons a bad ih =>
    intro k s hwhole hbad hw hr hc
    obtain ⟨whole, hwhole⟩ := List.forall_mem_cons.1 hwhole
    obtain ⟨notNominal, hbad⟩ := List.forall_mem_cons.1 hbad
    rw [List.length_cons, Nat.add_comm bad.length 1] at hc
    rw [List.length_cons, Nat.add_right_comm _ 1,
      pollAttempts_again_script k _ hw hr whole (quietCancel_add hc) notNominal]
    refine (ih (k + 1) (afterStatuses s _ _ _ _ _ _) hwhole hbad rfl rfl rfl).trans ?_
    rw [afterStatuses_append, ← attempt_draws, Nat.add_assoc k, Nat.add_comm 1]
    rfl

/-! The obligations. -/

theorem polls_ne_nil (p : Params) {as : List (List Byte × List Byte × List Byte)} (h : as ≠ []) : polls p as ≠ [] := by
  obtain ⟨a, rest, rfl⟩ := List.exists_cons_of_ne_nil h
  exact List.cons_ne_nil _ _

/-- Settles O44: the attempts are used up. -/
theorem pollstatIsBounded : Obligations.PollstatIsBounded := by
  intro s retries bad ws rs cs hready hpos hwhole hbad k hk hw hr hc new
  have nonempty : bad ≠ [] := List.length_pos_iff.1 (lt_of_lt_of_eq hpos hk.symm)
  have run := pollAttempts_bad 0 1 s hwhole hbad hw hr hc
  rw [pollAttempts_exhausted, finished_afterStatuses hready.1 (polls_ne_nil _ nonempty), ← Nat.add_assoc] at run
  rw [exec_pollstat hready, ← hk]
  exact run

/-- Every attempt stores the same three fields, so that the last one counts. -/
theorem snapAfter_foldl (good : List Byte × List Byte × List Byte) (bad : List (List Byte × List Byte × List Byte)) :
    ∀ snap : Snapshot, snapAfter (bad.foldl snapAfter snap) good = snapAfter snap good := by
  induction bad with
  | nil => exact fun _ => rfl
  | cons a bad ih => exact fun snap => ih (snapAfter snap a)

/-- Settles O43: after the attempts that are not nominal the nominal one is answered. -/
theorem pollstatStopsAtTheFirstNominalAttempt : Obligations.PollstatStopsAtTheFirstNominalAttempt := by
  intro s retries bad good ws rs cs hready hwhole hbad hgood hmax k hw hr hc new
  obtain ⟨left, hleft⟩ := Nat.exists_eq_add_of_lt hmax
  obtain ⟨wholeBad, wholeGood⟩ := List.forall_mem_append.1 hwhole
  have writes : s.env.writes =
      List.replicate (3 * bad.length) (.count 7) ++ (.count 7 :: .count 7 :: .count 7 :: ws) := by
    rw [hw, show 3 * k = 3 * bad.length + 3 from rfl, List.replicate_add]
    exact List.append_assoc _ _ _
  have reads : s.env.reads = responsesOf bad ++ (.bytes good.1 :: .bytes good.2.1 :: .bytes good.2.2 :: rs) := by
    rw [hr, responsesOf, List.flatMap_append]
    exact List.append_assoc _ _ _
  have run := (pollAttempts_bad (left + 1) 1 s wholeBad hbad writes reads (quietCancel_add hc)).trans
    (pollAttempts_nominal_script _ left rfl rfl (wholeGood good (List.mem_singleton_self good)) rfl hgood)
  have events : new = polls s.params bad ++ polls s.params [good] := polls_append s.params bad [good]
  have draws : 6 * k + samples s k = 6 * bad.length + samples s bad.length + (samples s 1 + 6) := by
    show 6 * (bad.length + 1) + samples s (bad.length + 1) = _
    have := attempt_draws s 6 bad.length
    omega
  have nonempty : polls s.params bad ++ polls s.params [good] ≠ [] :=
    List.append_ne_nil_of_right_ne_nil _ (polls_ne_nil _ (List.cons_ne_nil _ _))
  rw [afterStatuses_append, Nat.add_comm 1] at run
  rw [exec_pollstat hready, hleft, events, Nat.add_assoc s.draws, draws, ← snapAfter_foldl good bad]
  exact run.trans (finished_afterStatuses hready.1 nonempty _ _ _ _ _ _)

/-- After attempts that are not nominal POLLSTAT ends at once where the cancel input is 1 or one of the three queries
fails (45_procedures.md R264, 60_exceptions.md R297). -/
theorem exec_pollstat_stops {s u : State} (hready : Ready s) {retries : Option Nat} {ws : List WriteAnswer}
    {rs : List ReadAnswer} {cs : List Bool} {bad : List (List Byte × List Byte × List Byte)}
    (hwhole : ∀ a ∈ bad, WholeAttempt s.params a) (hbad : ∀ a ∈ bad, ¬ Nominal s.params a)
    (hmax : bad.length < retries.getD 10) (hws : s.env.writes = List.replicate (3 * bad.length) (.count 7) ++ ws)
    (hrs : s.env.reads = responsesOf bad ++ rs) (hcs : QuietCancel s bad.length cs)
    (hu : u = afterStatuses s (polls s.params bad) (6 * bad.length + samples s bad.length) ws rs cs
      (bad.foldl snapAfter s.snap)) :
    (cancelSample u = true →
      exec (.pollstat retries) s = ends (sampleCancel u) (.error (.cancelled .status (bad.length + 1)))) ∧
    (cancelSample u = false →
      QueryStops (exec (.pollstat retries) s) (sampleCancel u) (plainQuery s.params .hwstatGet) 5 ∧
      ∀ hw, Answers (sampleCancel u) (plainQuery s.params .hwstatGet) hw → 5 ≤ hw.length →
        QueryStops (exec (.pollstat retries) s) (stored s.params .hwstatGet storeHw hw (sampleCancel u))
          (plainQuery s.params .sysstatGet) 5 ∧
        ∀ sys, Answers (stored s.params .hwstatGet storeHw hw (sampleCancel u)) (plainQuery s.params .sysstatGet) sys →
          5 ≤ sys.length →
          QueryStops (exec (.pollstat retries) s)
            (stored s.params .sysstatGet storeSys sys (stored s.params .hwstatGet storeHw hw (sampleCancel u)))
            (plainQuery s.params .mainstatGet) 5) := by
  obtain ⟨left, hleft⟩ := Nat.exists_eq_add_of_lt hmax
  have run : exec (.pollstat retries) s = finished (pollAttempts (bad.length + 1) (left + 1) u) := by
    rw [exec_pollstat hready, hleft, hu, Nat.add_comm bad.length 1]
    exact pollAttempts_bad (left + 1) 1 s hwhole hbad hws hrs hcs
  have idle : (sampleCancel u).ustep = none := by
    rw [sampleCancel_ustep, hu]
    exact hready.1
  have params : (sampleCancel u).params = s.params := by
    rw [sampleCancel_params, hu]
    rfl
  refine ⟨fun cancel => ?_, fun quiet => ?_⟩
  · rw [run, pollAttempts_cancelled _ left cancel, finished_idle idle]
  have stops {v : State} {q : List Byte} (n : Nat) (hv : v.ustep = none)
      (h : ∀ w e, QueryFails v q w e →
        runSteps 0 statusQueries (setUstep 0 (sampleCancel u)) = (setUstep n w, .error e)) :
      QueryStops (exec (.pollstat retries) s) v q 5 :=
    queryStops_of_fails fun w e fails => by
      rw [run, pollAttempts_fails _ left quiet (h w e fails), finished_idle (fails.ustep.trans hv)]
  refine ⟨stops 0 idle fun w e fails => ?_, fun hw h1 l1 => ⟨stops 1 (by simpa using idle) fun w e fails => ?_,
    fun sys h2 l2 => stops 2 (by simpa using idle) fun w e fails => ?_⟩⟩
  · rw [statusQueries_eq]
    exact runSteps_byteQuery_fails 0 0 _ rfl params fails
  · rw [statusQueries_eq, runSteps_byteQuery_answered 0 0 _ rfl params h1 l1]
    exact runSteps_byteQuery_fails 1 1 _ rfl (by simpa using params) fails
  · rw [statusQueries_eq, runSteps_byteQuery_answered 0 0 _ rfl params h1 l1,
      runSteps_byteQuery_answered 1 1 _ rfl (by simpa using params) h2 l2]
    exact runSteps_byteQuery_fails 2 2 _ rfl (by simpa using params) fails

/-- Settles O45: a bound of 0 leaves no attempt, and both procedures stop as their laws say. -/
theorem pollingStopsAtTheFirstFailure : Obligations.PollingStopsAtTheFirstFailure := by
  refine ⟨fun s hready => ?_, fun s maxAttempts hready => ⟨fun hw => ?_, ?_⟩, ?_⟩
  · rw [exec_pollstat hready]
    exact finished_idle hready.1 _
  · exact exec_validate_refused hready maxAttempts hw
  · intro busy ws rs cs hlen hbusy k hmax hw hws hrs hcs new u
    exact exec_validate_stops hready rfl hw hlen hbusy hmax hws hrs hcs rfl
  · intro s retries bad ws rs cs hready hwhole hbad k hmax hws hrs hcs p u
    have hu : u = afterStatuses s (polls s.params bad) (6 * k + samples s k) ws rs cs (bad.foldl snapAfter s.snap) := rfl
    exact exec_pollstat_stops (u := u) hready hwhole hbad hmax hws hrs hcs hu

end

end Sys2Proof.Machine

/-! PROOFS. O39 and O40: UPLOAD (45_procedures.md R254 to R256). Its steps are class A operations, so that it is the
sending of their packets in order, whatever the transport answers. -/

namespace Sys2Proof.Machine

section

open Sys2Proof.Claims

/-! One class A packet. -/

/-- The state with another `SEQ`, which no access reads. -/
def withSeq (seq : Byte) (s : State) : State := { s with seq := seq }

theorem withSeq_withSeq (seq seq' : Byte) (s : State) : withSeq seq (withSeq seq' s) = withSeq seq s := rfl

theorem afterRead_withSeq (seq : Byte) (s : State) : afterRead (withSeq seq s) = withSeq seq (afterRead s) := rfl

theorem afterExchanges_withSeq (seq : Byte) (s : State) (new : List TransportEvent) (d : Nat)
    (ws : List WriteAnswer) (rs : List ReadAnswer) (cs : List Bool) :
    afterExchanges (withSeq seq s) new d ws rs cs = withSeq seq (afterExchanges s new d ws rs cs) := rfl

/-- The state after a class A packet has been handed to the transport (40_framer.md R122). -/
def numberedWrite (p : List Byte) (s : State) : State := withSeq (s.seq + 1) (afterWrite s p)

/-- The ways the sending of a class A packet can end, each with the state it leaves (45_procedures.md R255). -/
inductive AckEnds (p : List Byte) (s : State) : State → Except Ending Value → Prop
  | writeFailed (hw : writeAccepted p s = false) :
      AckEnds p s (numberedWrite p s) (.error (.transportError .write))
  | readFailed (hw : writeAccepted p s = true) (hk : s.params.ackReply = true)
      (hr : readAnswer (numberedWrite p s) = .failure) :
      AckEnds p s (afterRead (numberedWrite p s)) (.error (.transportError .read))
  | silent (hw : writeAccepted p s = true) (hk : s.params.ackReply = false) :
      AckEnds p s (numberedWrite p s) (.ok .none)
  | answered (r : List Byte) (hw : writeAccepted p s = true) (hk : s.params.ackReply = true)
      (hr : readAnswer (numberedWrite p s) = .bytes r) :
      AckEnds p s (afterRead (numberedWrite p s)) (.ok .none)

/-- The sending ends in one of these ways. -/
theorem ackEnds_total (p : List Byte) (s : State) : ∃ t o, AckEnds p s t o := by
  cases hw : writeAccepted p s with
  | false => exact ⟨_, _, .writeFailed hw⟩
  | true =>
    cases hk : s.params.ackReply with
    | false => exact ⟨_, _, .silent hw hk⟩
    | true =>
      cases hr : readAnswer (numberedWrite p s) with
      | failure => exact ⟨_, _, .readFailed hw hk hr⟩
      | bytes r => exact ⟨_, _, .answered r hw hk hr⟩

/-- A class A operation without a result sends its packet so, and `USTEP` has no part in it. -/
theorem operation_ackEnds {op : Op} (ha : op.cls = .a) (pl : List Nat) (n : Nat) (s : State) :
    ∃ t o, operation none op pl noResult (setUstep n s) = (setUstep n t, o) ∧
      AckEnds (opPacket s.params s.seq op pl) s t o := by
  have hs : sent op pl (setUstep n s) = setUstep n (numberedWrite (opPacket s.params s.seq op pl) s) :=
    sent_numbered ha pl (setUstep n s)
  have hread : readAnswer (sent op pl (setUstep n s)) =
      readAnswer (numberedWrite (opPacket s.params s.seq op pl) s) := by
    rw [hs]
    rfl
  obtain ⟨t, o, e⟩ := ackEnds_total (opPacket s.params s.seq op pl) s
  refine ⟨t, o, ?_, e⟩
  cases e with
  | writeFailed hw => rw [operation_write_failed (s := setUstep n s) _ hw, hs]
  | readFailed hw hk hr =>
    rw [operation_read_failed (s := setUstep n s) _ hw ((reply_ack ha _).trans hk) (hread.trans hr), hs]
    rfl
  | silent hw hk => rw [operation_silent (s := setUstep n s) hw ((reply_ack ha _).trans hk), hs]
  | answered r hw hk hr =>
    rw [operation_acknowledged (s := setUstep n s) hw ((reply_ack ha _).trans hk) (hread.trans hr), hs]
    rfl

/-- What the sending of packets leaves alone. -/
structure Untouched (s t : State) : Prop where
  snap : t.snap = s.snap
  connected : t.connected = s.connected
  cfg : t.cfg = s.cfg
  params : t.params = s.params
  requests : t.requests = s.requests
  cancels : t.env.cancels = s.env.cancels
  ustep : t.ustep = s.ustep

theorem Untouched.trans {s t u : State} (h : Untouched s t) (h' : Untouched t u) : Untouched s u where
  snap := h'.snap.trans h.snap
  connected := h'.connected.trans h.connected
  cfg := h'.cfg.trans h.cfg
  params := h'.params.trans h.params
  requests := h'.requests.trans h.requests
  cancels := h'.cancels.trans h.cancels
  ustep := h'.ustep.trans h.ustep

namespace AckEnds

variable {p : List Byte} {s t : State} {o : Except Ending Value} {e : Ending} {v : Value}

theorem untouched (h : AckEnds p s t o) : Untouched s t := by
  cases h <;> exact ⟨rfl, rfl, rfl, rfl, rfl, rfl, rfl⟩

theorem seq (h : AckEnds p s t o) : t.seq = s.seq + 1 := by
  cases h <;> rfl

theorem buffers (h : AckEnds p s t o) : t.tx = [] ∧ t.rx = [] := by
  cases h <;> exact ⟨rfl, rfl⟩

/-- The first packet that is not sent and answered ends the sending. -/
theorem sendInOrder_error (h : AckEnds p s t (.error e)) (rest : List (List Byte)) :
    sendInOrder (p :: rest) s = ends t (.error e) := by
  cases h with
  | writeFailed hw => simp only [sendInOrder, hw]; rfl
  | readFailed hw hk hr =>
    have hr : readAnswer { afterWrite s p with seq := s.seq + 1 } = .failure := hr
    simp only [sendInOrder, hw, hk, hr]; rfl

/-- A packet that is sent and answered is followed by the others. -/
theorem sendInOrder_ok (h : AckEnds p s t (.ok v)) (rest : List (List Byte)) :
    sendInOrder (p :: rest) s = sendInOrder rest t := by
  cases h with
  | silent hw hk => simp only [sendInOrder, hw, hk]; rfl
  | answered r hw hk hr =>
    have hr : readAnswer { afterWrite s p with seq := s.seq + 1 } = .bytes r := hr
    simp only [sendInOrder, hw, hk, hr]; rfl

end AckEnds

/-! The steps of UPLOAD as packets. -/

/-- The packets of class A operations from a sequence number on (45_procedures.md R256). -/
def numbered (p : Params) : Byte → List (Op × List Nat) → List (List Byte)
  | _, [] => []
  | seq, (op, pl) :: rest =>
    packetOf (if p.ackReply then 0x40 else 0x00) seq (p.code op) (pl.map trunc8) :: numbered p (seq + 1) rest

/-- The step of a procedure is this class A operation, under the binding. -/
def StepSends (p : Params) (f : State → Res Value) (q : Op × List Nat) : Prop :=
  q.1.cls = .a ∧ ∀ u : State, u.params = p → f u = operation none q.1 q.2 noResult u

/-- A line of class A operations is the sending of their packets. -/
theorem runSteps_eq_sendInOrder {p : Params} {steps : List (State → Res Value)} {ops : List (Op × List Nat)}
    (h : List.Forall₂ (StepSends p) steps ops) : ∀ (k : Nat) (s : State), s.params = p → s.ustep = none →
    finished (runSteps k steps (setUstep k s)) = sendInOrder (numbered p s.seq ops) s := by
  induction h with
  | nil => exact fun k s _ hu => finished_idle hu _
  | @cons f q steps ops hf _ ih =>
    intro k s hp hu
    obtain ⟨op, pl⟩ := q
    obtain ⟨ha, hf⟩ := hf
    obtain ⟨t, o, ho, hends⟩ := operation_ackEnds ha pl k s
    have hparams : t.params = s.params := hends.untouched.params
    have hustep : t.ustep = s.ustep := hends.untouched.ustep
    rw [runSteps_cons, hf (setUstep k s) hp, ho]
    rw [opPacket_ack ha, ackPacket, hp] at hends
    rw [numbered]
    cases o with
    | error e =>
      rw [hends.sendInOrder_error]
      exact finished_idle (hustep.trans hu) _
    | ok v =>
      rw [hends.sendInOrder_ok, ← hends.seq]
      exact ih (k + 1) t (hparams.trans hp) (hustep.trans hu)

/-- The twelve operations of UPLOAD with their payloads (45_procedures.md R254). -/
def uploadOperations (p : Params) (raw idx : List Nat) (exp : Nat) (longer : Bool) (mode : Nat) (rep : Bool) :
    List (Op × List Nat) :=
  let e := raw.length / 3
  [(.patsrcSet, [3]), (.lutctlSet, lutctlPayload e rep e idx.length), (.exposureSet, exposurePayload exp longer),
   (.trigmodeSet, [mode]), (.mboxOpen, [p.mboxFnPattern]), (.lutofsSet, [trunc 8 0]), (.patlutWr, raw.map (trunc 8)),
   (.mboxClose, [p.mboxCloseCode.toNat]), (.mboxOpen, [p.mboxFnImage]), (.lutofsSet, [trunc 8 0]),
   (.idxlistWr, idx.map (trunc 8)), (.mboxClose, [p.mboxCloseCode.toNat])]

theorem checkMailbox_pass {fn : Nat} (h : fn ∈ [1, 2, 3]) : checkMailbox fn = none := by
  rw [checkMailbox_eq, if_pos (by simpa using h)]

/-- Under the pre-flight check and 00_scope.md R6 no local check of a step rejects. -/
theorem uploadSteps_send {p : Params} (hp : p.Wf) (raw idx : List Nat) (exp : Nat) (longer : Bool) {mode : Nat}
    (hmode : mode ≤ 4) (rep : Bool) :
    List.Forall₂ (StepSends p) (uploadSteps p raw idx exp longer mode rep)
      (uploadOperations p raw idx exp longer mode rep) := by
  obtain ⟨hpattern, himage, -⟩ := hp
  have opens {fn : Nat} (h : fn ∈ [1, 2, 3]) : StepSends p (opMboxOpen fn) (.mboxOpen, [fn]) :=
    ⟨rfl, fun u _ => by rw [opMboxOpen, checkMailbox_pass h]⟩
  have close : StepSends p opMboxClose (.mboxClose, [p.mboxCloseCode.toNat]) :=
    ⟨rfl, fun u hu => by rw [opMboxClose, hu]⟩
  have trigmode : StepSends p (opTrigmodeSet mode) (.trigmodeSet, [mode]) :=
    ⟨rfl, fun u _ => by rw [opTrigmodeSet, checkTrigmode_eq, if_neg (Nat.not_lt.2 hmode)]⟩
  have free {op : Op} (ha : op.cls = .a) (pl : List Nat) : StepSends p (operation none op pl noResult) (op, pl) :=
    ⟨ha, fun _ _ => rfl⟩
  exact .cons (free rfl _) (.cons (free rfl _) (.cons (free rfl _) (.cons trigmode (.cons (opens hpattern)
    (.cons (free rfl _) (.cons (free rfl _) (.cons close (.cons (opens himage) (.cons (free rfl _)
    (.cons (free rfl _) (.cons close .nil)))))))))))

theorem seq_add_succ (seq : Byte) (k : Nat) : seq + BitVec.ofNat 8 k + 1 = seq + BitVec.ofNat 8 (k + 1) := by
  rw [BitVec.ofNat_add, BitVec.add_assoc]
  rfl

theorem seq_succ_add (seq : Byte) (k : Nat) : seq + 1 + BitVec.ofNat 8 k = seq + BitVec.ofNat 8 (k + 1) := by
  rw [← seq_add_succ, BitVec.add_assoc, BitVec.add_comm 1, BitVec.add_assoc]

/-- The packets of the twelve operations, byte by byte. -/
theorem numbered_uploadOperations (s : State) (raw idx : List Nat) (exp : Nat) (longer : Bool) (mode : Nat)
    (rep : Bool) :
    numbered s.params s.seq (uploadOperations s.params raw idx exp longer mode rep) =
      uploadPackets s raw idx exp longer mode rep := by
  have first : s.seq = s.seq + BitVec.ofNat 8 0 := (BitVec.add_zero _).symm
  rw [first]
  simp only [uploadOperations, numbered, seq_add_succ, map_trunc8_trunc, List.map_cons, List.map_nil,
    map_trunc8_exposurePayload, lutctlPayload, trunc8_trunc, trunc8_flagNat, trunc8_toNat]
  rfl

/-- UPLOAD, once its pre-flight check has passed, is the sending of its twelve packets in order (R254). -/
theorem exec_upload {s : State} (hready : Ready s) (hp : s.params.Wf) {raw idx : List Nat} {mode : Nat}
    (hpass : PreflightPasses raw idx mode) (exp : Nat) (longer rep : Bool) :
    exec (.upload raw idx exp longer mode rep) s = sendInOrder (uploadPackets s raw idx exp longer mode rep) s := by
  obtain ⟨⟨h0, h3⟩, ⟨h1, hE⟩, hmode⟩ := hpass
  have pass : preflight raw idx mode = none := by
    rw [preflight_eq, if_neg (by omega), if_neg (by omega), if_neg (by omega)]
  show serveConnected (uploadBody raw idx exp longer mode rep) s = _
  have body : uploadBody raw idx exp longer mode rep s =
      procedure (runSteps 0 (uploadSteps s.params raw idx exp longer mode rep)) s := by
    rw [uploadBody, pass]
  rw [serveConnected_ready _ hready.1 hready.2, body, ← serveConnected_ready _ hready.1 hready.2,
    serveConnected_procedure hready,
    runSteps_eq_sendInOrder (uploadSteps_send hp raw idx exp longer hmode rep) 0 s rfl hready.1,
    numbered_uploadOperations]

/-! Where the sending stops. -/

theorem acknowledgements_cons (p : Params) (q : List Byte × List Byte) (steps : List (List Byte × List Byte)) :
    acknowledgements p (q :: steps) = acknowledgements p [q] ++ acknowledgements p steps := by
  simp [acknowledgements]

/-- How the last packet of a sending ends it, with the events this adds (45_procedures.md R255). -/
def LastEnds (p : Params) (rest : List (List Byte)) (last : List Byte) (final : List TransportEvent)
    (o : Except Ending Value) : Prop :=
  (o = .ok .none ∧ rest = [] ∧ ∃ r, final = acknowledgements p [(last, r)]) ∨
  (o = .error (.transportError .write) ∧ ∃ a, a ≠ .count last.length ∧ final = [.wrote last a]) ∨
  (o = .error (.transportError .read) ∧ p.ackReply = true ∧
    final = [.wrote last (.count last.length), .read p.rxMaxLen p.rxTimeoutMs .failure])

/-- A sending that has left `s` ends in `t`: the packets `done` are sent and answered, and the next one is the last. -/
def StopsAt (s : State) (packets : List (List Byte)) (t : State) (o : Except Ending Value) : Prop :=
  ∃ (done rest : List (List Byte)) (last : List Byte) (rs : List (List Byte)) (final : List TransportEvent),
    packets = done ++ last :: rest ∧ rs.length = done.length ∧
    t.history = s.history ++ acknowledgements s.params (done.zip rs) ++ final ∧
    t.seq = s.seq + BitVec.ofNat 8 (done.length + 1) ∧ Untouched s t ∧ t.tx = [] ∧ t.rx = [] ∧
    LastEnds s.params rest last final o

namespace AckEnds

variable {p : List Byte} {s t : State} {e : Ending} {v : Value}

/-- The events of a packet that is sent and answered. -/
theorem history_ok (h : AckEnds p s t (.ok v)) :
    v = .none ∧ ∃ r, t.history = s.history ++ acknowledgements s.params [(p, r)] := by
  cases h with
  | silent hw hk =>
    refine ⟨rfl, [], ?_⟩
    simp [numberedWrite, withSeq, afterWrite, acknowledgements, (writeAccepted_iff p s).1 hw, hk]
  | answered r hw hk hr =>
    refine ⟨rfl, r, ?_⟩
    rw [afterRead_history, hr]
    simp [numberedWrite, withSeq, afterWrite, acknowledgements, (writeAccepted_iff p s).1 hw, hk]

/-- The events of a packet that is not. -/
theorem history_error (h : AckEnds p s t (.error e)) (rest : List (List Byte)) :
    ∃ final, t.history = s.history ++ final ∧ LastEnds s.params rest p final (.error e) := by
  cases h with
  | writeFailed hw =>
    have refused : writeAnswer p s ≠ .count p.length := fun ha => by simp [(writeAccepted_iff p s).2 ha] at hw
    exact ⟨_, rfl, .inr (.inl ⟨rfl, _, refused, rfl⟩)⟩
  | readFailed hw hk hr =>
    refine ⟨_, ?_, .inr (.inr ⟨rfl, hk, rfl⟩)⟩
    rw [afterRead_history, hr]
    simp [numberedWrite, withSeq, afterWrite, (writeAccepted_iff p s).1 hw]

/-- One packet after which nothing follows. -/
theorem stopsAt_last {o : Except Ending Value} {rest : List (List Byte)} {final : List TransportEvent}
    (h : AckEnds p s t o) (hh : t.history = s.history ++ final) (hl : LastEnds s.params rest p final o) :
    StopsAt s (p :: rest) t o :=
  ⟨[], rest, p, [], final, rfl, rfl, by rw [hh]; simp [acknowledgements], h.seq, h.untouched, h.buffers.1, h.buffers.2,
    hl⟩

/-- A packet that is sent and answered, before a sending that stops. -/
theorem stopsAt_cons {u : State} {o : Except Ending Value} {packets : List (List Byte)} (h : AckEnds p s t (.ok v))
    (hs : StopsAt t packets u o) : StopsAt s (p :: packets) u o := by
  obtain ⟨-, r, hr⟩ := h.history_ok
  have hp : t.params = s.params := h.untouched.params
  obtain ⟨done, rest, last, rs, final, hpackets, hlen, hhist, hseq, hkeep, htx, hrx, hlast⟩ := hs
  refine ⟨p :: done, rest, last, r :: rs, final, by rw [hpackets]; rfl, congrArg (· + 1) hlen, ?_, ?_,
    h.untouched.trans hkeep, htx, hrx, hp ▸ hlast⟩
  · rw [hhist, hr, hp, List.zip_cons_cons, acknowledgements_cons _ (p, r) (done.zip rs), List.append_assoc s.history]
  · rw [hseq, h.seq, seq_succ_add, List.length_cons]

end AckEnds

/-- Every sending of one packet at least stops at one of them. -/
theorem sendInOrder_stops (rest : List (List Byte)) : ∀ (p : List Byte) (s : State),
    ∃ t o, sendInOrder (p :: rest) s = ends t o ∧ StopsAt s (p :: rest) t o := by
  induction rest with
  | nil =>
    intro p s
    obtain ⟨t, o, h⟩ := ackEnds_total p s
    cases o with
    | error e =>
      obtain ⟨final, hh, hl⟩ := h.history_error []
      exact ⟨t, _, h.sendInOrder_error [], h.stopsAt_last hh hl⟩
    | ok v =>
      obtain ⟨rfl, r, hh⟩ := h.history_ok
      exact ⟨t, _, h.sendInOrder_ok [], h.stopsAt_last hh (.inl ⟨rfl, rfl, r, rfl⟩)⟩
  | cons q rest ih =>
    intro p s
    obtain ⟨t, o, h⟩ := ackEnds_total p s
    cases o with
    | error e =>
      obtain ⟨final, hh, hl⟩ := h.history_error (q :: rest)
      exact ⟨t, _, h.sendInOrder_error _, h.stopsAt_last hh hl⟩
    | ok v =>
      obtain ⟨u, o, hu, hs⟩ := ih q t
      exact ⟨u, o, (h.sendInOrder_ok _).trans hu, h.stopsAt_cons hs⟩

/-! A sending that the script answers. -/

/-- The script has one packet sent and answered. -/
theorem ackEnds_script {s : State} {p r : List Byte} {ws : List WriteAnswer} {rs : List ReadAnswer}
    (hw : s.env.writes = .count p.length :: ws)
    (hr : s.env.reads = if s.params.ackReply then .bytes r :: rs else rs)
    (hl : s.params.ackReply = true → r.length ≤ s.params.rxMaxLen) :
    AckEnds p s (withSeq (s.seq + 1) (afterExchanges s (acknowledgements s.params [(p, r)])
      (if s.params.ackReply then 2 else 1) ws rs s.env.cancels)) (.ok .none) := by
  have accepted : writeAccepted p s = true := (writeAccepted_iff p s).2 (writeAnswer_script hw)
  have hws : s.env.writes.tail = ws := congrArg List.tail hw
  cases hk : s.params.ackReply with
  | false =>
    have h := AckEnds.silent accepted hk
    rw [hk] at hr
    rw [numberedWrite, afterWrite_accepted accepted, hws, hr] at h
    simpa [acknowledgements, hk] using h
  | true =>
    rw [hk] at hr
    have answer := answers_of_script hw hr (hl hk)
    have h := AckEnds.answered (p := p) r accepted hk answer.2
    rw [numberedWrite, afterRead_withSeq, ← afterQuery, afterQuery_answered answer, hws, hr] at h
    simpa [acknowledgements, exchanges, hk] using h

/-- The script has all packets sent and answered. -/
theorem sendInOrder_script {ws : List WriteAnswer} {rs : List ReadAnswer} {steps : List (List Byte × List Byte)} :
    ∀ s : State, s.env.writes = steps.map (fun q => .count q.1.length) ++ ws →
    s.env.reads = (if s.params.ackReply then steps.map (fun q => .bytes q.2) else []) ++ rs →
    (s.params.ackReply = true → ∀ q ∈ steps, q.2.length ≤ s.params.rxMaxLen) →
    sendInOrder (steps.map Prod.fst) s =
      ends (withSeq (s.seq + BitVec.ofNat 8 steps.length) (afterExchanges s (acknowledgements s.params steps)
        ((if s.params.ackReply then 2 else 1) * steps.length) ws rs s.env.cancels)) (.ok .none) := by
  induction steps with
  | nil =>
    intro s hw hr _
    have reads : s.env.reads = rs := by simpa using hr
    have same : afterExchanges s [] 0 ws rs s.env.cancels = s := afterExchanges_self hw reads (ite_self _).symm
    rw [List.length_nil, Nat.mul_zero, BitVec.add_zero]
    show ends s _ = ends (withSeq s.seq (afterExchanges s [] 0 ws rs s.env.cancels)) _
    rw [same]
    rfl
  | cons q steps ih =>
    intro s hw hr hl
    have h := ackEnds_script (p := q.1) (r := q.2) (ws := steps.map (fun q => .count q.1.length) ++ ws)
      (rs := (if s.params.ackReply then steps.map (fun q => .bytes q.2) else []) ++ rs) hw
      (by rw [hr]; split <;> rfl) (fun hk => hl hk q List.mem_cons_self)
    rw [List.map_cons, h.sendInOrder_ok]
    refine (ih (withSeq _ (afterExchanges s _ _ _ _ _)) rfl rfl
      fun hk a ha => hl hk a (List.mem_cons_of_mem q ha)).trans ?_
    rw [afterExchanges_withSeq, withSeq_withSeq, afterExchanges_append, acknowledgements_cons _ q steps,
      List.length_cons, ← seq_succ_add, Nat.mul_succ, Nat.add_comm (_ * _)]
    rfl

/-- With `ACK_REPLY = 1` the acknowledgements are exchanges. -/
theorem acknowledgements_exchanged {p : Params} (hk : p.ackReply = true) (steps : List (List Byte × List Byte)) :
    acknowledgements p steps = exchanges p steps := by
  simp [acknowledgements, exchanges, hk]

/-- With `ACK_REPLY = 0` they are writes alone. -/
theorem acknowledgements_silent {p : Params} (hk : p.ackReply = false) (packets : List (List Byte)) :
    acknowledgements p (packets.map fun q => (q, [])) = packets.map fun q => .wrote q (.count q.length) := by
  rw [acknowledgements, hk, List.flatMap_map, List.map_eq_flatMap]
  rfl

/-! The obligations. -/

/-- Settles O40: the ending of a sending of twelve packets. -/
theorem uploadStopsAtTheFirstFailure : Obligations.UploadStopsAtTheFirstFailure := by
  intro s raw idx exp longer mode rep hready hp hpass packets
  have run := exec_upload hready hp hpass exp longer rep
  obtain ⟨t, o, hends, done, rest, last, rs, final, hpackets, hlen, hhist, hseq, hkeep, htx, hrx, hlast⟩ :=
    sendInOrder_stops packets.tail (packets.head (List.cons_ne_nil _ _)) s
  refine ⟨run, { t with outcome := some o }, done, rest, last, rs, final, run.trans hends, hpackets, hlen, hhist, hseq,
    hkeep.snap, hkeep.connected, hkeep.cfg, hkeep.params, hkeep.requests, hkeep.cancels,
    ⟨hkeep.ustep.trans hready.1, htx, hrx⟩, ?_⟩
  exact hlast.imp (fun ⟨ho, h⟩ => ⟨congrArg some ho, h⟩) (Or.imp (fun ⟨ho, h⟩ => ⟨congrArg some ho, h⟩)
    fun ⟨ho, h⟩ => ⟨congrArg some ho, h⟩)

/-- Settles O39: the script answers every packet, with a read after each where `ACK_REPLY = 1`. -/
theorem uploadSendsItsTwelvePackets : Obligations.UploadSendsItsTwelvePackets := by
  intro s raw idx exp longer mode rep rs ws' rs' hready hp hpass packets hw
  have twelve : packets.length = 12 := rfl
  rw [exec_upload hready hp hpass exp longer rep]
  refine ⟨?_, ?_⟩
  · intro hk new
    have h := sendInOrder_script (ws := ws') (rs := s.env.reads) (steps := packets.map fun p => (p, [])) s
      (by rw [hw, List.map_map]; rfl) (by rw [hk]; rfl) (by simp [hk])
    rw [acknowledgements_silent hk, hk, List.length_map, twelve, List.map_map] at h
    exact h
  · intro hk hlen hl hr new
    have fst : (packets.zip rs).map Prod.fst = packets := List.map_fst_zip (by rw [twelve, hlen])
    have snd : (packets.zip rs).map Prod.snd = rs := List.map_snd_zip (by rw [twelve, hlen])
    have length : (packets.zip rs).length = 12 := by rw [← List.length_map (f := Prod.snd), snd, hlen]
    have writes : (packets.zip rs).map (fun q => WriteAnswer.count q.1.length) =
        packets.map fun p => .count p.length := by
      conv_rhs => rw [← fst, List.map_map]
      rfl
    have reads : (packets.zip rs).map (fun q => ReadAnswer.bytes q.2) = rs.map .bytes := by
      conv_rhs => rw [← snd, List.map_map]
      rfl
    have h := sendInOrder_script (ws := ws') (rs := rs') (steps := packets.zip rs) s (by rw [writes, hw])
      (by rw [hk, if_pos rfl, reads, hr]) (fun _ q hq => hl q.2 (List.of_mem_zip hq).2)
    obtain ⟨r, rest, rfl⟩ := List.exists_cons_of_length_eq_add_one hlen
    rw [acknowledgements_exchanged hk, hk, length, fst] at h
    exact h

end

end Sys2Proof.Machine

/-! PROOFS. O48: when a request is refused (60_exceptions.md R288). -/

namespace Sys2Proof.Machine

section

open Sys2Proof.Claims

/-- A request that sends packets is served on a connected block alone, and its operations leave the connection open. -/
theorem exec_needsConnection {i : Instr} (h : needsConnection i = true) (s : State) :
    ∃ body : State → Res Value, exec i s = serveConnected body s ∧
      ∀ u, u.connected = true → (body u).1.connected = true := by
  cases hi : i.wire s.params with
  | some q =>
    obtain ⟨op, pl⟩ := q
    obtain ⟨parse, hp, he⟩ := exec_is_operation hi
    exact ⟨_, he, fun u hu => ((continues_kept u).constituent (operation_isConstituent hp _ _) u ⟨hu, .refl u⟩).1⟩
  | none =>
    cases i <;> simp only [Instr.wire, needsConnection, reduceCtorEq, Bool.false_eq_true] at hi h
    case upload raw idx exp longer mode rep =>
      exact ⟨_, rfl, fun u hu => ((continues_kept u).uploadBody raw idx exp longer mode rep u ⟨hu, .refl u⟩).1⟩
    case validate n => exact ⟨_, rfl, fun u hu => ((continues_kept u).validateBody n u ⟨hu, .refl u⟩).1⟩
    case pollstat retries => exact ⟨_, rfl, fun u hu => ((continues_kept u).pollBody retries u ⟨hu, .refl u⟩).1⟩

theorem accept_refused {body : State → Host.Outcome State Fault Refusal} {s : State} {r : Refusal} :
    accept body s = .refused r ↔
      (s.ustep ≠ none ∧ r = .requestInProgress) ∨ (s.ustep = none ∧ body s = .refused r) := by
  cases hu : s.ustep with
  | none => simp [accept_idle body hu]
  | some n => simp [accept, hu, @eq_comm _ r]

theorem serveConnected_refused {body : State → Res Value} {s : State} {r : Refusal} :
    serveConnected body s = .refused r ↔
      (s.ustep ≠ none ∧ r = .requestInProgress) ∨ (s.ustep = none ∧ s.connected = false ∧ r = .notConnected) := by
  rw [serveConnected, accept_refused]
  cases s.connected <;> simp [@eq_comm _ r]

/-- The refusals of a request of the table. -/
theorem exec_refused {i : Instr} {s : State} {r : Refusal} :
    exec i s = .refused r ↔
      (s.ustep ≠ none ∧ r = .requestInProgress) ∨
      (s.ustep = none ∧ needsConnection i = true ∧ s.connected = false ∧ r = .notConnected) ∨
      (i = .connect ∧ s.ustep = none ∧ s.connected = true ∧ r = .alreadyConnected) := by
  cases hn : needsConnection i with
  | true =>
    obtain ⟨body, he, -⟩ := exec_needsConnection hn s
    have notConnect : i ≠ .connect := by rintro rfl; cases hn
    rw [he, serveConnected_refused]
    simp [notConnect]
  | false =>
    cases i <;> simp only [needsConnection, Bool.true_eq_false] at hn
    case encode c2 c3 pl ro rp us =>
      show execEncode c2 c3 pl ro rp us s = _ ↔ _
      simp [execEncode, accept_refused]
    case decode p =>
      show execDecode p s = _ ↔ _
      rw [execDecode, accept_refused]
      cases decodeFrame p <;> simp
    case connect =>
      show execConnect s = _ ↔ _
      rw [execConnect, accept_refused]
      cases s.connected <;> simp [@eq_comm _ r]
    case disconnect =>
      show execDisconnect s = _ ↔ _
      simp [execDisconnect, accept_refused]

/-- The closed list of 60_exceptions.md R288: the request `q` is refused in the state `s` under the name `r`. -/
def Refuses (q : HostRequest) (s : State) (r : Refusal) : Prop :=
  (∃ m, q = .unknown m ∧ r = .unknownMnemonic) ∨
  ((∀ m, q ≠ .unknown m) ∧ s.ustep ≠ none ∧ r = .requestInProgress) ∨
  (∃ i, q = .run i ∧ s.ustep = none ∧ needsConnection i = true ∧ s.connected = false ∧ r = .notConnected) ∨
  (q = .run .connect ∧ s.ustep = none ∧ s.connected = true ∧ r = .alreadyConnected) ∨
  (∃ f, q = .readSnap f ∧ s.ustep = none ∧ s.snap.get f = none ∧ r = .snapshotAbsent f)

/-- A request is refused exactly as the list says. -/
theorem serve_refused {q : HostRequest} {s : State} {r : Refusal} : serve q s = .refused r ↔ Refuses q s r := by
  cases q with
  | unknown m => simp [serve, Refuses, @eq_comm _ r]
  | run i => simp [serve, exec_refused, Refuses]
  | readSnap f =>
    rw [serve, readSnapshot, accept_refused]
    cases hf : s.snap.get f <;> simp [Refuses, hf, @eq_comm _ r]
  | identity w => simp [serve, askIdentity, accept_refused, Refuses]

/-- Settles O48: the step serves the first request in the state without it, which differs in no field of the list. -/
theorem refusalsAreTheClosedList : Obligations.RefusalsAreTheClosedList := by
  intro s r
  cases hq : s.requests with
  | nil => simp [step_of_no_requests hq]
  | cons q rest =>
    rw [step_of_requests hq, serve_refused]
    constructor
    · exact fun h => ⟨q, rest, rfl, h⟩
    · rintro ⟨q', rest', he, h⟩
      obtain ⟨rfl, rfl⟩ := List.cons.inj he
      exact h

end

end Sys2Proof.Machine

/-! PROOFS. O49: which requests end with ConfigurationError (60_exceptions.md R281). -/

namespace Sys2Proof.Machine

section

open Sys2Proof.Claims

/-! The endings without a ConfigurationError. -/

/-- The activity has not ended with ConfigurationError. -/
def Unrejected {α : Type} (r : Res α) : Prop := ∀ c, r.2 ≠ .error (.configurationError c)

theorem unrejected_ok {α : Type} (s : State) (a : α) : Unrejected (s, .ok a) := by
  simp [Unrejected]

theorem Unrejected.andThen {α β : Type} {m : Res α} {f : State → α → Res β} (hm : Unrejected m)
    (hf : ∀ s a, Unrejected (f s a)) : Unrejected (m.andThen f) := by
  obtain ⟨s, e | a⟩ := m
  · exact fun c h => hm c (congrArg Except.error (Except.error.inj h))
  · exact hf s a

/-- An operation that passes its local check does not end so. -/
theorem OperationEnds.unrejected {α : Type} {writes : Snapshot → Snapshot → Prop} {op : Op} {pl : List Nat} {s : State}
    {r : Res α} (h : OperationEnds writes op pl s r) : Unrejected r := by
  cases h <;> simp [Unrejected]

theorem Unrejected.procedure {α : Type} {body : State → Res α} (h : ∀ s, Unrejected (body s)) (s : State) :
    Unrejected (procedure body s) := h (setUstep 0 s)

theorem runSteps_unrejected {steps : List (State → Res Value)} (hs : ∀ f ∈ steps, ∀ s, Unrejected (f s)) :
    ∀ (k : Nat) (s : State), Unrejected (runSteps k steps s) := by
  induction steps with
  | nil => exact fun _ s => unrejected_ok s _
  | cons f rest ih =>
    obtain ⟨hf, hrest⟩ := List.forall_mem_cons.1 hs
    exact fun k s => (hf s).andThen fun _ _ => ih hrest _ _

theorem validateAttempts_unrejected (left : Nat) :
    ∀ (k : Nat) (s : State), Unrejected (validateAttempts k left s) := by
  induction left with
  | zero => simp [validateAttempts, raise, Unrejected]
  | succ left ih =>
    intro k s
    rw [validateAttempts]
    cases cancelSample s with
    | true => simp [raise, Unrejected]
    | false =>
      refine (opValidGet_ends _).unrejected.andThen fun t ⟨busy, faults, raw⟩ => ?_
      cases busy with
      | true => exact ih _ _
      | false => exact unrejected_ok _ _

theorem validateBody_unrejected (n : Nat) (s : State) : Unrejected (validateBody n s) :=
  .procedure (fun u => (opValidStart_ends u).unrejected.andThen fun v _ => validateAttempts_unrejected n 1 v) s

theorem statusQueries_unrejected : ∀ f ∈ statusQueries, ∀ s, Unrejected (f s) := by
  simp only [statusQueries, List.forall_mem_cons, List.not_mem_nil, false_implies, implies_true, and_true]
  exact ⟨fun s => (opHwstatGet_ends s).unrejected, fun s => (opSysstatGet_ends s).unrejected,
    fun s => (opMainstatGet_ends s).unrejected⟩

theorem pollAttempts_unrejected (left : Nat) : ∀ (k : Nat) (s : State), Unrejected (pollAttempts k left s) := by
  induction left with
  | zero => simp [pollAttempts, raise, Unrejected]
  | succ left ih =>
    intro k s
    rw [pollAttempts]
    cases cancelSample s with
    | true => simp [raise, Unrejected]
    | false =>
      refine (runSteps_unrejected statusQueries_unrejected 0 _).andThen fun t _ => ?_
      cases nominalStatus k t with
      | some v => exact unrejected_ok _ _
      | none => exact ih _ _

theorem pollBody_unrejected (retries : Option Nat) (s : State) : Unrejected (pollBody retries s) :=
  .procedure (pollAttempts_unrejected _ 1) s

/-! The requests. -/

/-- The pre-flight check of UPLOAD is the condition of 60_exceptions.md R281. -/
theorem rejection_upload (raw idx : List Nat) (exp : Nat) (longer : Bool) (mode : Nat) (rep : Bool) :
    rejection (.upload raw idx exp longer mode rep) = preflight raw idx mode :=
  (preflight_eq raw idx mode).symm

theorem preflightPasses_of_preflight {raw idx : List Nat} {mode : Nat} (h : preflight raw idx mode = none) :
    PreflightPasses raw idx mode := by
  rw [preflight_eq] at h
  split_ifs at h
  exact ⟨by omega, by omega, by omega⟩

/-- A request that meets a condition of 60_exceptions.md R281 ends with its cause and changes nothing else. -/
theorem exec_of_rejection {s : State} {i : Instr} {c : ConfigCause} (hready : Ready s) (h : rejection i = some c) :
    exec i s = ends s (.error (.configurationError c)) := by
  cases hi : i.wire s.params with
  | some q =>
    obtain ⟨op, pl⟩ := q
    obtain ⟨parse, -, he⟩ := exec_is_operation hi
    exact exec_rejected hready he ((localCheck_eq_rejection (Option.isSome_of_eq_some hi)).trans h)
  | none =>
    cases i <;> simp only [Instr.wire, rejection, reduceCtorEq] at hi h
    case upload raw idx exp longer mode rep => exact execUpload_rejected hready h

/-- The twelve operations of UPLOAD pass their local checks under 00_scope.md R6: the two mailbox codes of the binding are
among those that MBOX_OPEN admits. -/
theorem exec_upload_unrejected {s t : State} (hready : Ready s) (hp : s.params.Wf) {raw idx : List Nat} {exp : Nat}
    {longer : Bool} {mode : Nat} {rep : Bool} (h : rejection (.upload raw idx exp longer mode rep) = none)
    (he : exec (.upload raw idx exp longer mode rep) s = .next t) (c : ConfigCause) :
    t.outcome ≠ some (.error (.configurationError c)) := by
  obtain ⟨-, u, done, rest, last, rs, final, hu, -, -, -, -, -, -, -, -, -, -, -, hends⟩ :=
    uploadStopsAtTheFirstFailure s raw idx exp longer mode rep hready hp
      (preflightPasses_of_preflight ((rejection_upload raw idx exp longer mode rep).symm.trans h))
  obtain rfl := Host.Outcome.next.inj (he.symm.trans hu)
  obtain ⟨ho, -⟩ | ⟨ho, -⟩ | ⟨ho, -⟩ := hends <;> simp [ho]

/-- The ways a request that needs no connection can end. -/
theorem exec_unconnected_ends {i : Instr} {s t : State} (hn : needsConnection i = false) (he : exec i s = .next t) :
    (∃ v, t.outcome = some (.ok v)) ∨ (∃ c, t.outcome = some (.error (.frameError c))) ∨
    (i = .connect ∧ t = deliver (closeTransport (openTransport s), .error (.transportError .openFailed))) := by
  cases i <;> simp only [needsConnection, Bool.true_eq_false] at hn
  case encode c2 c3 pl ro rp us =>
    obtain ⟨-, he⟩ := accept_next (show execEncode c2 c3 pl ro rp us s = _ from he)
    obtain rfl := Host.Outcome.next.inj he
    exact .inl ⟨_, rfl⟩
  case decode p =>
    obtain ⟨-, he⟩ := accept_next (show execDecode p s = _ from he)
    split at he
    · obtain rfl := Host.Outcome.next.inj he
      exact .inl ⟨_, rfl⟩
    · obtain rfl := Host.Outcome.next.inj he
      exact .inr (.inl ⟨_, rfl⟩)
  case connect =>
    obtain ⟨-, he⟩ := accept_next (show execConnect s = _ from he)
    split at he
    · cases he
    · obtain rfl := Host.Outcome.next.inj he
      cases ho : openAnswer s with
      | handle => exact .inl ⟨.none, by rw [connectBody_handle ho]; rfl⟩
      | failure => exact .inr (.inr ⟨rfl, by rw [connectBody_failure ho]⟩)
  case disconnect =>
    obtain ⟨-, he⟩ := accept_next (show execDisconnect s = _ from he)
    obtain rfl := Host.Outcome.next.inj he
    exact .inl ⟨_, rfl⟩

/-- A request that meets none of these conditions ends otherwise. -/
theorem exec_unrejected {s t : State} {i : Instr} (hready : Ready s) (hp : s.params.Wf) (h : rejection i = none)
    (he : exec i s = .next t) (c : ConfigCause) : t.outcome ≠ some (.error (.configurationError c)) := by
  have delivered {r : Res Value} (hr : Unrejected r) (ht : t = deliver r) :
      t.outcome ≠ some (.error (.configurationError c)) := by
    subst ht
    exact fun ho => hr c (Option.some.inj ho)
  cases hi : i.wire s.params with
  | some q =>
    obtain ⟨op, pl⟩ := q
    obtain ⟨r, hr, ⟨c', hc', -⟩ | ⟨-, hends⟩⟩ := exec_operation_ends hready.1 hready.2 hi
    · rw [localCheck_eq_rejection (Option.isSome_of_eq_some hi), h] at hc'
      cases hc'
    · exact delivered hends.unrejected (Host.Outcome.next.inj (he.symm.trans hr))
  | none =>
    cases hn : needsConnection i with
    | false =>
      obtain ⟨v, ho⟩ | ⟨c', ho⟩ | ⟨-, rfl⟩ := exec_unconnected_ends hn he
      · simp [ho]
      · simp [ho]
      · simp [deliver]
    | true =>
      cases i <;> simp only [Instr.wire, needsConnection, reduceCtorEq, Bool.false_eq_true] at hi hn
      case upload raw idx exp longer mode rep => exact exec_upload_unrejected hready hp h he c
      case validate n =>
        obtain ⟨-, -, ht⟩ := serveConnected_next he
        exact delivered (validateBody_unrejected n s) ht
      case pollstat retries =>
        obtain ⟨-, -, ht⟩ := serveConnected_next he
        exact delivered (pollBody_unrejected retries s) ht

/-- Settles O49. -/
theorem configurationErrorsAreTheClosedList : Obligations.ConfigurationErrorsAreTheClosedList :=
  fun _ _ hready hp => ⟨fun _ h => exec_of_rejection hready h, fun h _ c he => exec_unrejected hready hp h he c⟩

end

end Sys2Proof.Machine

/-! PROOFS. O58: DeviceFault is data inside Ok (60_exceptions.md R284). -/

namespace Sys2Proof.Machine

section

open Sys2Proof.Claims

/-! The status queries. -/

/-- A query of one byte whose response holds the byte ends Ok with it, whatever it is, and stores it. -/
theorem exec_byteQuery_answered (i : Instr) {op : Op} {store : Byte → Snapshot → Snapshot} {s : State} {r : List Byte}
    (hready : Ready s) (hq : op.cls = .q) (he : exec i s = serveConnected (byteQuery op store .byte) s)
    (hlen : 5 ≤ r.length) (h : Answers s (queryPacket s op []) r) :
    ∃ t, exec i s = .next t ∧ t.outcome = some (.ok (.byte (byteAt r 4))) ∧ t.snap = store (byteAt r 4) s.snap :=
  ⟨_, he.trans (by rw [serveConnected_ready _ hready.1 hready.2, byteQuery_answered hq rfl h hlen]), rfl, rfl⟩

/-- A query is answered with a whole response or fails. -/
theorem query_cases (s : State) (p : List Byte) :
    (∃ r, Answers s p r ∧ 5 ≤ r.length) ∨ ∃ w e, QueryFails s p w e := by
  cases hw : writeAccepted p s with
  | false => exact .inr ⟨_, _, .write hw⟩
  | true =>
    cases hr : readAnswer (afterWrite s p) with
    | failure => exact .inr ⟨_, _, .read hw hr⟩
    | bytes r =>
      by_cases hlen : 5 ≤ r.length
      · exact .inl ⟨r, ⟨hw, hr⟩, hlen⟩
      · exact .inr ⟨_, _, .underrun r ⟨hw, hr⟩ (by omega)⟩

/-! The last access of VALIDATE. -/

/-- The response with which a history ends, where its last access is an answered read. -/
def lastResponse (h : List TransportEvent) : Option (List Byte) :=
  match h.getLast? with
  | some (.read _ _ (.bytes r)) => some r
  | _ => none

@[simp] theorem lastResponse_wrote (h : List TransportEvent) (p : List Byte) (a : WriteAnswer) :
    lastResponse (h ++ [.wrote p a]) = none := by
  simp [lastResponse]

@[simp] theorem lastResponse_read (h : List TransportEvent) (m timeoutMs : Nat) (r : List Byte) :
    lastResponse (h ++ [.read m timeoutMs (.bytes r)]) = some r := by
  simp [lastResponse]

@[simp] theorem lastResponse_readFailed (h : List TransportEvent) (m timeoutMs : Nat) :
    lastResponse (h ++ [.read m timeoutMs .failure]) = none := by
  simp [lastResponse]

theorem lastResponse_afterWrite (s : State) (p : List Byte) : lastResponse (afterWrite s p).history = none :=
  lastResponse_wrote _ _ _

theorem lastResponse_afterQuery {s : State} {p r : List Byte} (h : Answers s p r) :
    lastResponse (afterQuery s p).history = some r := by
  rw [afterQuery, afterRead_history, h.2, lastResponse_read]

/-- The history does not end in a data byte whose busy bit is clear. -/
def NotIdle (s : State) : Prop :=
  ∀ r, lastResponse s.history = some r → 5 ≤ r.length → validationBusy (byteAt r 4) = true

theorem notIdle_of_none {s : State} (h : lastResponse s.history = none) : NotIdle s := by
  simp [NotIdle, h]

/-- A query that fails leaves no whole response behind. -/
theorem QueryFails.notIdle {s w : State} {p : List Byte} {e : Ending} (h : QueryFails s p w e) : NotIdle w := by
  cases h with
  | write hw => exact notIdle_of_none (lastResponse_afterWrite s p)
  | read hw hr => exact notIdle_of_none (by rw [afterQuery, afterRead_history, hr, lastResponse_readFailed])
  | underrun r h hlen =>
    intro r' hr' hlen'
    obtain rfl := Option.some.inj ((lastResponse_afterQuery h).symm.trans hr')
    omega

/-- The ways VALIDATE can end, with the history it leaves. -/
inductive ValidateEnds (t : State) : Prop
  | stopped (e : Ending) (ho : t.outcome = some (.error e)) (hh : NotIdle t)
  | idle (r : List Byte) (ho : t.outcome = some (.ok (.faults (validationFaults (byteAt r 4)))))
      (hh : lastResponse t.history = some r)

/-- The attempts end so, from a history that does not end in an idle data byte. -/
theorem validateAttempts_ends {t : State} (left : Nat) : ∀ (k : Nat) (s : State), NotIdle s →
    finished (validateAttempts k left s) = .next t → ValidateEnds t := by
  have stopped {w : State} {e : Ending} (hh : NotIdle w) (h : finished (w, .error e) = .next t) : ValidateEnds t := by
    obtain rfl := Host.Outcome.next.inj h
    exact .stopped e rfl hh
  induction left with
  | zero => exact fun k s => stopped
  | succ left ih =>
    intro k s hs h
    cases hc : cancelSample s with
    | true =>
      rw [validateAttempts_cancelled k left hc] at h
      exact stopped (by rwa [NotIdle, sampleCancel_history]) h
    | false =>
      obtain ⟨r, answered, hlen⟩ | ⟨w, e, fails⟩ := query_cases (sampleCancel s) (plainQuery s.params .validGet)
      · have last := lastResponse_afterQuery answered
        cases hb : validationBusy (byteAt r 4) with
        | true =>
          rw [validateAttempts_again k left hc answered hlen hb] at h
          refine ih (k + 1) _ (fun r' hr' _ => ?_) h
          obtain rfl := Option.some.inj (last.symm.trans hr')
          exact hb
        | false =>
          rw [validateAttempts_idle k left hc answered hlen hb] at h
          have ht := Host.Outcome.next.inj h
          exact .idle r (by rw [← ht]) (by rw [← ht]; exact last)
      · rw [validateAttempts_fails k left hc fails] at h
        exact stopped fails.notIdle h

theorem exec_validate_ends {s t : State} {n : Nat} (he : exec (.validate n) s = .next t) : ValidateEnds t := by
  obtain ⟨hu, hc, -⟩ := serveConnected_next (show serveConnected (validateBody n) s = _ from he)
  have written := notIdle_of_none (lastResponse_afterWrite s (firePacket s .validStart s.params.validStartPayload))
  cases hw : writeAccepted (firePacket s .validStart s.params.validStartPayload) s with
  | false =>
    rw [exec_validate_refused ⟨hu, hc⟩ n hw] at he
    obtain rfl := Host.Outcome.next.inj he
    exact .stopped _ rfl written
  | true =>
    rw [exec_validate_started ⟨hu, hc⟩ n hw, ← afterWrite_accepted hw] at he
    exact validateAttempts_ends n 1 _ written he

/-! The faults. -/

/-- Each set bit names its fault (43_pattern_config.md R204). -/
theorem mem_namedFaults (f : BitVec 5) :
    (.exposureInvalid ∈ namedFaults f ↔ f.getLsbD 0 = true) ∧ (.lutNumbersInvalid ∈ namedFaults f ↔ f.getLsbD 1 = true) ∧
    (.triggerOverlap ∈ namedFaults f ↔ f.getLsbD 2 = true) ∧ (.missingPostVector ∈ namedFaults f ↔ f.getLsbD 3 = true) ∧
    (.deltaUnder230 ∈ namedFaults f ↔ f.getLsbD 4 = true) := by
  simp [namedFaults]

/-- Settles O58: each status query answers the byte it stores, and VALIDATE ends Ok where its last access is idle. -/
theorem deviceFaultIsDataInsideOk : Obligations.DeviceFaultIsDataInsideOk := by
  refine ⟨fun s hready r hlen => ⟨fun h => ?_, fun h => ?_, fun h => ?_, fun v => rfl⟩, fun s t n he => ?_,
    fun p n f => ⟨bne_iff_ne, mem_namedFaults f⟩⟩
  · obtain ⟨t, he, ho, hs⟩ := exec_byteQuery_answered .hwstatGet (store := storeHw) hready rfl rfl hlen h
    exact ⟨t, he, ho, congrArg Snapshot.hw hs, bne_iff_ne⟩
  · obtain ⟨t, he, ho, hs⟩ := exec_byteQuery_answered .sysstatGet (store := storeSys) hready rfl rfl hlen h
    exact ⟨t, he, ho, congrArg Snapshot.sys hs, bne_iff_ne⟩
  · obtain ⟨t, he, ho, hs⟩ := exec_byteQuery_answered .mainstatGet (store := storeMain) hready rfl rfl hlen h
    exact ⟨t, he, ho, congrArg Snapshot.main hs⟩
  · cases exec_validate_ends he with
    | stopped e ho notIdle =>
      refine ⟨fun v hv => by simp [ho] at hv, fun before m timeoutMs r hh hlen hidle => ?_⟩
      have busy := notIdle r (by rw [hh, lastResponse_read]) hlen
      exact absurd busy (ne_true_of_eq_false hidle)
    | idle r ho hl =>
      refine ⟨fun v hv => ⟨_, Except.ok.inj (Option.some.inj (hv.symm.trans ho))⟩, fun before m timeoutMs r' hh _ _ => ?_⟩
      rw [hh, lastResponse_read] at hl
      obtain rfl := Option.some.inj hl
      rw [ho, validationFaults, BitVec.setWidth_eq_extractLsb' (by decide)]

end

end Sys2Proof.Machine

/-! PROOFS. O50: `SEQ`, the snapshot and the connection after a TransportError (60_exceptions.md R283). -/

namespace Sys2Proof.Machine

section

open Sys2Proof.Claims

/-! `SEQ` after class A packets, however the request ends. -/

/-- Between `s` and `t` the history has grown, and `SEQ` has advanced once for each packet written. -/
def Numbered (s t : State) : Prop :=
  ∃ new, t.history = s.history ++ new ∧ t.seq = s.seq + BitVec.ofNat 8 (packetsWritten new).length

theorem Numbered.refl (s : State) : Numbered s s := ⟨[], (List.append_nil _).symm, (BitVec.add_zero _).symm⟩

theorem Numbered.trans {s t u : State} (h : Numbered s t) (h' : Numbered t u) : Numbered s u := by
  obtain ⟨new, hh, hs⟩ := h
  obtain ⟨new', hh', hs'⟩ := h'
  refine ⟨new ++ new', by rw [hh', hh, List.append_assoc], ?_⟩
  rw [hs', hs, packetsWritten_append, List.length_append, BitVec.ofNat_add, BitVec.add_assoc]

/-- One class A packet. -/
theorem OperationEnds.numbered {α : Type} {writes : Snapshot → Snapshot → Prop} {op : Op} {pl : List Nat} {s : State}
    {r : Res α} (h : OperationEnds writes op pl s r) (hn : op.cls.useSequence = true) : Numbered s r.1 := by
  obtain ⟨rest, hh, hw⟩ := h.history
  refine ⟨_, hh, h.seq.trans ?_⟩
  show _ = s.seq + BitVec.ofNat 8 ((packetsWritten rest).length + 1)
  rw [hn, hw]
  rfl

/-- A class A operation without a result, rejected by its local check or not. -/
theorem operation_numbered {op : Op} (hn : op.cls.useSequence = true) (check : Option ConfigCause) (pl : List Nat)
    (s : State) : Numbered s (operation check op pl noResult s).1 := by
  cases check with
  | some c => exact .refl s
  | none => exact (operation_ends (noResult_fits _) pl s).numbered hn

theorem uploadSteps_numbered (p : Params) (raw idx : List Nat) (exp : Nat) (longer : Bool) (mode : Nat) (rep : Bool) :
    ∀ f ∈ uploadSteps p raw idx exp longer mode rep, ∀ s, Numbered s (f s).1 := by
  have close (s : State) : Numbered s (opMboxClose s).1 := operation_numbered rfl _ _ s
  simp only [uploadSteps, List.forall_mem_cons, List.not_mem_nil, false_implies, implies_true, and_true]
  refine ⟨?_, ?_, ?_, ?_, ?_, ?_, ?_, close, ?_, ?_, ?_, close⟩
  all_goals exact operation_numbered rfl _ _

theorem uploadBody_numbered (raw idx : List Nat) (exp : Nat) (longer : Bool) (mode : Nat) (rep : Bool) (s : State) :
    Numbered s (uploadBody raw idx exp longer mode rep s).1 := by
  unfold uploadBody
  cases preflight raw idx mode with
  | some c => exact .refl s
  | none =>
    have steps := uploadSteps_numbered s.params raw idx exp longer mode rep
    exact runSteps_keeps (Numbered s) (fun _ _ h => h) _ (fun f hf u hu => hu.trans (steps f hf u)) 0 (setUstep 0 s)
      (.refl s)

theorem sendsAcknowledged_operation {p : Params} {i : Instr} (hi : IsOperation p i) :
    sendsAcknowledged i = isAcknowledged i := by
  cases i
  case upload => cases hi
  all_goals rfl

/-- A request that sends class A packets advances `SEQ` once for each. -/
theorem exec_numbered {i : Instr} {s t : State} (ha : sendsAcknowledged i = true) (he : exec i s = .next t) :
    Numbered s t := by
  cases hi : i.wire s.params with
  | some q =>
    obtain ⟨op, pl⟩ := q
    obtain ⟨hu, hc⟩ := exec_operation_next hi he
    obtain ⟨r, hr, hends⟩ := exec_operation_ends hu hc hi
    obtain rfl : t = deliver r := Host.Outcome.next.inj (he.symm.trans hr)
    rw [sendsAcknowledged_operation (Option.isSome_of_eq_some hi), ← useSequence_eq_isAcknowledged hi] at ha
    obtain ⟨c, -, rfl⟩ | ⟨-, hends⟩ := hends
    · exact .refl s
    · exact hends.numbered ha
  | none =>
    cases i <;> simp only [Instr.wire, sendsAcknowledged, isAcknowledged, reduceCtorEq, Bool.false_eq_true] at hi ha
    case upload raw idx exp longer mode rep =>
      obtain ⟨-, -, rfl⟩ := serveConnected_next (show serveConnected (uploadBody raw idx exp longer mode rep) s = _ from he)
      exact uploadBody_numbered raw idx exp longer mode rep s

/-! What POLLSTAT has stored when it ends with TransportError. -/

/-- Between `s` and `t` the history has grown by accesses that read these responses. -/
def Reads (s t : State) (rs : List (List Byte)) : Prop :=
  ∃ new, t.history = s.history ++ new ∧ responsesRead new = rs

theorem Reads.refl (s : State) : Reads s s [] := ⟨[], (List.append_nil _).symm, rfl⟩

theorem Reads.trans {s t u : State} {rs rs' : List (List Byte)} (h : Reads s t rs) (h' : Reads t u rs') :
    Reads s u (rs ++ rs') := by
  obtain ⟨new, hh, rfl⟩ := h
  obtain ⟨new', hh', rfl⟩ := h'
  exact ⟨new ++ new', by rw [hh', hh, List.append_assoc], List.filterMap_append⟩

theorem reads_stored {p : Params} {op : Op} (store : Byte → Snapshot → Snapshot) {r : List Byte} {s : State}
    (h : Answers s (plainQuery p op) r) : Reads s (stored p op store r s) [r] :=
  ⟨exchanges s.params [(plainQuery p op, r)], congrArg State.history (afterQuery_answered h), rfl⟩

theorem reads_sampleCancel (s : State) : Reads s (sampleCancel s) [] :=
  ⟨[], by rw [sampleCancel_history, List.append_nil], rfl⟩

/-- A query that the transport fails reads no response. -/
theorem QueryFails.reads {s w : State} {p : List Byte} {c : TransportCause}
    (h : QueryFails s p w (.transportError c)) : Reads s w [] := by
  cases h with
  | write hw => exact ⟨_, rfl, rfl⟩
  | read hw hr =>
    refine ⟨_, List.append_assoc _ _ _, ?_⟩
    show responsesRead [_, .read _ _ (readAnswer (afterWrite s p))] = []
    rw [hr]
    rfl

theorem QueryFails.snap {s w : State} {p : List Byte} {e : Ending} (h : QueryFails s p w e) : w.snap = s.snap := by
  cases h <;> rfl

/-- Between `s` and `t` responses have been read, and the snapshot holds what they give it in the order of the queries of
POLLSTAT (45_procedures.md R261). -/
def StatusesStored (s t : State) : Prop := ∃ rs, Reads s t rs ∧ t.snap = storeStatuses s.snap rs

/-- The ways the three queries of an attempt can end, with what they have stored. -/
inductive StatusesEnd (s : State) : Res Value → Prop
  | failed (n : Nat) {w : State} {e : Ending} (h : ∀ c, e = .transportError c → StatusesStored s w) :
      StatusesEnd s (setUstep n w, .error e)
  | answered {v : State} (hw sys main : List Byte) (hr : Reads s v [hw, sys, main])
      (hs : v.snap = storeStatuses s.snap [hw, sys, main]) : StatusesEnd s (setUstep 3 v, .ok .none)

/-- One query of an attempt, after those that have read `rs`: it fails, or its response is stored and the line goes on. -/
theorem statusesEnd_query {op : Op} {store : Byte → Snapshot → Snapshot} {s v : State} {rs : List (List Byte)} {k : Nat}
    {rest : List (State → Res Value)} (hq : op.cls = .q) (hr : Reads s v rs) (hs : v.snap = storeStatuses s.snap rs)
    (next : ∀ r, Reads s (stored v.params op store r v) (rs ++ [r]) →
      StatusesEnd s (runSteps (k + 1) rest (setUstep (k + 1) (stored v.params op store r v)))) :
    StatusesEnd s (runSteps k (byteQuery op store .byte :: rest) (setUstep k v)) := by
  obtain ⟨r, answers, hlen⟩ | ⟨w, e, fails⟩ := query_cases v (plainQuery v.params op)
  · rw [runSteps_byteQuery_answered k k rest hq rfl answers hlen]
    exact next r (hr.trans (reads_stored store answers))
  · rw [runSteps_byteQuery_fails k k rest hq rfl fails]
    refine .failed k fun c hc => ?_
    subst hc
    exact ⟨rs ++ [], hr.trans fails.reads, by rw [List.append_nil, fails.snap, hs]⟩

theorem statusQueries_end (s : State) : StatusesEnd s (runSteps 0 statusQueries (setUstep 0 s)) := by
  rw [statusQueries_eq]
  refine statusesEnd_query rfl (.refl s) rfl fun hw h => ?_
  refine statusesEnd_query rfl h rfl fun sys h => ?_
  refine statusesEnd_query rfl h rfl fun main h => ?_
  exact .answered hw sys main h rfl

/-- The attempts, by induction on those that are left: the responses of each come before those of the next. -/
theorem pollAttempts_statusesStored {t : State} {c : TransportCause}
    (ho : t.outcome = some (.error (.transportError c))) (left : Nat) :
    ∀ (k : Nat) (s : State), finished (pollAttempts k left s) = .next t → StatusesStored s t := by
  have ended {u : State} {o : Except Ending Value} (h : finished (u, o) = .next t) :
      o = .error (.transportError c) ∧ t.history = u.history ∧ t.snap = u.snap := by
    obtain rfl := Host.Outcome.next.inj h
    exact ⟨Option.some.inj ho, rfl, rfl⟩
  induction left with
  | zero =>
    intro k s h
    obtain ⟨⟨⟩, -⟩ := ended h
  | succ left ih =>
    intro k s h
    cases hc : cancelSample s with
    | true =>
      rw [pollAttempts_cancelled k left hc] at h
      obtain ⟨⟨⟩, -⟩ := ended h
    | false =>
      have queries := statusQueries_end (sampleCancel s)
      generalize hrun : runSteps 0 statusQueries (setUstep 0 (sampleCancel s)) = r at queries
      have sampled {rs : List (List Byte)} {v : State} (hr : Reads (sampleCancel s) v rs) : Reads s v rs :=
        (reads_sampleCancel s).trans hr
      rw [StatusesStored, ← sampleCancel_snap s]
      cases queries with
      | @failed n w e stored =>
        rw [pollAttempts_fails k left hc hrun] at h
        obtain ⟨he, hh, hs⟩ := ended h
        obtain ⟨rs, hr, hsnap⟩ := stored c (Except.error.inj he)
        exact ⟨rs, sampled (by rwa [Reads, hh]), hs.trans hsnap⟩
      | @answered v hw sys main hr hs =>
        cases hnominal : nominalStatus k v with
        | some status =>
          rw [pollAttempts_nominal k left hc hrun hnominal] at h
          obtain ⟨⟨⟩, -⟩ := ended h
        | none =>
          rw [pollAttempts_again k left hc hrun hnominal] at h
          obtain ⟨rs, hr', hsnap⟩ := ih (k + 1) v h
          refine ⟨_, sampled (hr.trans hr'), hsnap.trans ?_⟩
          rw [hs]
          rfl

theorem exec_pollstat_statusesStored {s t : State} {retries : Option Nat} {c : TransportCause}
    (he : exec (.pollstat retries) s = .next t) (ho : t.outcome = some (.error (.transportError c))) :
    StatusesStored s t := by
  obtain ⟨hu, hc, -⟩ := serveConnected_next (show serveConnected (pollBody retries) s = _ from he)
  rw [exec_pollstat ⟨hu, hc⟩] at he
  exact pollAttempts_statusesStored ho _ 1 s he

/-! What a TransportError leaves. -/

/-- Of the requests that need no connection only CONNECT ends with TransportError: its `open` has failed. -/
theorem unconnected_transportError {i : Instr} {s t : State} {c : TransportCause} (hn : needsConnection i = false)
    (he : exec i s = .next t) (ho : t.outcome = some (.error (.transportError c))) :
    i = .connect ∧ t = deliver (closeTransport (openTransport s), .error (.transportError .openFailed)) := by
  obtain ⟨v, h⟩ | ⟨c', h⟩ | h := exec_unconnected_ends hn he
  · simp [h] at ho
  · simp [h] at ho
  · exact h

section

variable {i : Instr} {s t : State} {c : TransportCause} (he : exec i s = .next t)
  (ho : t.outcome = some (.error (.transportError c)))

include he ho

theorem transportError_connected : t.connected = s.connected := by
  cases hn : needsConnection i with
  | false =>
    obtain ⟨-, rfl⟩ := unconnected_transportError hn he ho
    rfl
  | true =>
    obtain ⟨body, hb, keeps⟩ := exec_needsConnection hn s
    obtain ⟨-, hc, rfl⟩ := serveConnected_next (hb ▸ he)
    exact (keeps s hc).trans hc.symm

/-- A request that sends no class A packet leaves `SEQ` alone: ENCODE, which may advance it, ends Ok. -/
theorem transportError_seq (ha : sendsAcknowledged i = false) : t.seq = s.seq := by
  have notAcknowledged : isAcknowledged i = false := by
    cases i
    case upload => cases ha
    all_goals exact ha
  refine onlyAcknowledgedPacketsWriteSeq s t i he notAcknowledged ?_ ?_
  · rintro raw idx exp longer mode rep rfl
    cases ha
  · rintro c2 c3 pl ro rp rfl
    obtain ⟨⟨⟩, -⟩ := unconnected_transportError rfl he ho

theorem transportError_snap (notPollstat : ∀ retries, i ≠ .pollstat retries) : t.snap = s.snap := by
  cases hi : i.wire s.params with
  | some q =>
    obtain ⟨op, pl⟩ := q
    obtain ⟨hu, hc⟩ := exec_operation_next hi he
    obtain ⟨r, hr, hends⟩ := exec_operation_ends hu hc hi
    obtain rfl : t = deliver r := Host.Outcome.next.inj (he.symm.trans hr)
    obtain ⟨c', -, rfl⟩ | ⟨-, hends⟩ := hends
    · rfl
    · cases hends with
      | answered => cases ho
      | _ => rfl
  | none =>
    cases hn : needsConnection i with
    | false =>
      obtain ⟨-, rfl⟩ := unconnected_transportError hn he ho
      rfl
    | true =>
      cases i <;> simp only [Instr.wire, needsConnection, reduceCtorEq, Bool.false_eq_true] at hi hn
      case upload raw idx exp longer mode rep =>
        obtain ⟨-, -, rfl⟩ := serveConnected_next (show serveConnected (uploadBody raw idx exp longer mode rep) s = _ from he)
        exact uploadBody_snap raw idx exp longer mode rep s
      case validate n =>
        obtain ⟨-, -, rfl⟩ := serveConnected_next (show serveConnected (validateBody n) s = _ from he)
        exact (validateBody_registersKept n s).2
      case pollstat retries => exact absurd rfl (notPollstat retries)

end

/-- Settles O50. -/
theorem transportErrorLeavesTheStateDefined : Obligations.TransportErrorLeavesTheStateDefined := by
  intro s t i c he ho
  obtain ⟨hcfg, hparams, -, new, hnew, -⟩ := exec_continues he
  have grown {new' : List TransportEvent} (h : t.history = s.history ++ new') : new' = new :=
    List.append_cancel_left (h.symm.trans hnew)
  refine ⟨new, hnew, transportError_connected he ho, hcfg, hparams, ?_, ?_, transportError_snap he ho⟩
  · cases ha : sendsAcknowledged i with
    | false => exact transportError_seq he ho ha
    | true =>
      obtain ⟨new', hh, hs⟩ := exec_numbered ha he
      rwa [grown hh] at hs
  · rintro retries rfl
    obtain ⟨rs, ⟨new', hh, hr⟩, hs⟩ := exec_pollstat_statusesStored he ho
    rwa [← hr, grown hh] at hs

end

end Sys2Proof.Machine
